-- ==== Sys2Proof/Word.lean ====
section
/-! DEFINITION. The words of the unit: the port widths and the two port bundles, a command and a response
(10_state.md R11, R12). -/

namespace Sys2Proof

/-- What a data port carries (R2, R11, R12: XLEN = 64). -/
abbrev Data := BitVec 64

/-- What a position port carries, an unsigned number 0 to 255 (R2, R11: POSW = 8). -/
abbrev Position := BitVec 8

/-- What the op code port carries (R2, R11: OPW = 8). -/
abbrev OpCode := BitVec 8

/-- The flat command word CMD (R30). -/
abbrev CommandWord := BitVec 152

/-- The flat response word RSP (R31). -/
abbrev ResponseWord := BitVec 65

/-- One command: the five input ports (R11), in the order of the word CMD (R30). -/
structure Command where
  /-- op code (R33) -/
  op : OpCode
  /-- first position operand: start or high (R34) -/
  p : Position
  /-- second position operand: length or low (R34) -/
  q : Position
  /-- field operand (R34) -/
  b : Data
  /-- value operand (R34) -/
  a : Data
deriving DecidableEq, Repr

/-- One response: the two output ports (R12), in the order of the word RSP (R31). -/
structure Response where
  /-- `false` no error, `true` InvalidRange (R100) -/
  err : Bool
  /-- the result, zero-extended from the operation's width (R12) -/
  result : Data
deriving DecidableEq, Repr

end Sys2Proof
end

