-- ==== Sys2Proof/Syntax.lean ====
section
/-! DEFINITION. The instruction set: one constructor per row of spec/opcode_table.json, in the table's order, each with
the operands of its text form in the text form's order (30_encoding.md R33, R39). -/

namespace Sys2Proof

/-- A command as rule R39 writes it. The value and field operands have the operation's own width W (R34 clauses 1 and 2).
A position is a natural number: rule R2 states every rule on positions over natural numbers, and only the port bounds
one by 255 (`Instr.wellFormed`). What an operation does not read is not an operand (R35). -/
inductive Instr where
  /-- `extract32 a, start, length` (R53) -/
  | extract32 (a : BitVec 32) (start length : Nat)
  /-- `extract64 a, start, length` (R54) -/
  | extract64 (a : BitVec 64) (start length : Nat)
  /-- `getField32 a, high, low` (R55) -/
  | getField32 (a : BitVec 32) (high low : Nat)
  /-- `getField64 a, high, low` (R56) -/
  | getField64 (a : BitVec 64) (high low : Nat)
  /-- `deposit32 a, start, length, b` (R61) -/
  | deposit32 (a : BitVec 32) (start length : Nat) (b : BitVec 32)
  /-- `deposit64 a, start, length, b` (R62) -/
  | deposit64 (a : BitVec 64) (start length : Nat) (b : BitVec 64)
  /-- `setField32 a, high, low, b` (R63) -/
  | setField32 (a : BitVec 32) (high low : Nat) (b : BitVec 32)
  /-- `setField64 a, high, low, b` (R64) -/
  | setField64 (a : BitVec 64) (high low : Nat) (b : BitVec 64)
  /-- `countOnes8 a` (R72) -/
  | countOnes8 (a : BitVec 8)
  /-- `countOnes16 a` (R73) -/
  | countOnes16 (a : BitVec 16)
  /-- `countOnes32 a` (R74) -/
  | countOnes32 (a : BitVec 32)
  /-- `countOnes64 a` (R75) -/
  | countOnes64 (a : BitVec 64)
  /-- `countZeros8 a` (R76) -/
  | countZeros8 (a : BitVec 8)
  /-- `countZeros16 a` (R77) -/
  | countZeros16 (a : BitVec 16)
  /-- `countZeros32 a` (R78) -/
  | countZeros32 (a : BitVec 32)
  /-- `countZeros64 a` (R79) -/
  | countZeros64 (a : BitVec 64)
  /-- `countTrailingZeros32 a` (R87) -/
  | countTrailingZeros32 (a : BitVec 32)
  /-- `countTrailingZeros64 a` (R88) -/
  | countTrailingZeros64 (a : BitVec 64)
  /-- `countTrailingOnes32 a` (R89) -/
  | countTrailingOnes32 (a : BitVec 32)
  /-- `countTrailingOnes64 a` (R90) -/
  | countTrailingOnes64 (a : BitVec 64)
deriving DecidableEq, Repr

end Sys2Proof
end

