-- ==== Sys2Proof/Config.lean ====
section
/-! DEFINITION. The parameters of the block (00_scope.md section 3, rule R2). The spec leaves nothing to a free
draw (00_scope.md section 5), so there is no uninterpreted constant here. -/

namespace Sys2Proof.Config

/-- Width of the data ports `a`, `b` and `result` (R2, D1). -/
abbrev XLEN : Nat := 64

/-- Width of the position ports `p` and `q` (R2, D2). -/
abbrev POSW : Nat := 8

/-- Width of the op code port `op` (R2, D3). -/
abbrev OPW : Nat := 8

/-- Width of the flat command word, OPW + 2·POSW + 2·XLEN (R2, D12). -/
abbrev CMDW : Nat := OPW + 2 * POSW + 2 * XLEN

/-- Width of the flat response word, 1 + XLEN (R2, D13). -/
abbrev RSPW : Nat := 1 + XLEN

/-- Number of defined operations (R2). -/
abbrev NOPS : Nat := 20

/-- Number of error kinds: `InvalidRange` alone (R2, R100, C2). -/
abbrev NERR : Nat := 1

end Sys2Proof.Config
end

