-- ==== Sys2Proof/WellFormed.lean ====
section
/-! DEFINITION. Which instructions can be presented to the unit as they are: those whose positions fit the 8-bit position
ports (30_encoding.md R39, R34). -/

namespace Sys2Proof

/-- A position that a position port can carry: a number 0 to 255 (R11, R39). -/
def fitsPort (n : Nat) : Bool := decide (n < 2 ^ Config.POSW)

/-- Both positions of a field operation fit their ports (R39: "`p` and `q` as decimal numbers 0 to 255"). The data operands
fit their width by their type; a count operation has no position. -/
def Instr.wellFormed : Instr → Bool
  | .extract32 _ start length => fitsPort start && fitsPort length
  | .extract64 _ start length => fitsPort start && fitsPort length
  | .getField32 _ high low => fitsPort high && fitsPort low
  | .getField64 _ high low => fitsPort high && fitsPort low
  | .deposit32 _ start length _ => fitsPort start && fitsPort length
  | .deposit64 _ start length _ => fitsPort start && fitsPort length
  | .setField32 _ high low _ => fitsPort high && fitsPort low
  | .setField64 _ high low _ => fitsPort high && fitsPort low
  | .countOnes8 _ => true
  | .countOnes16 _ => true
  | .countOnes32 _ => true
  | .countOnes64 _ => true
  | .countZeros8 _ => true
  | .countZeros16 _ => true
  | .countZeros32 _ => true
  | .countZeros64 _ => true
  | .countTrailingZeros32 _ => true
  | .countTrailingZeros64 _ => true
  | .countTrailingOnes32 _ => true
  | .countTrailingOnes64 _ => true

end Sys2Proof
end

