-- ==== Sys2Proof/Decode.lean ====
section
/-! DEFINITION. The command and response words (30_encoding.md R30, R31), the op code table (R33), the decoder (R38, R34)
and the encoder (R41). -/

namespace Sys2Proof

/-! ### The flat words -/

/-- `CMD = {op, p, q, b, a}` taken apart (R30). -/
def Command.ofWord (w : CommandWord) : Command where
  op := w.extractLsb' 144 8
  p := w.extractLsb' 136 8
  q := w.extractLsb' 128 8
  b := w.extractLsb' 64 64
  a := w.extractLsb' 0 64

/-- `CMD = {op, p, q, b, a}` put together (R30). -/
def Command.toWord (c : Command) : CommandWord := c.op ++ c.p ++ c.q ++ c.b ++ c.a

/-- `RSP = {err, result}` put together (R31). -/
def Response.toWord (r : Response) : ResponseWord := BitVec.ofBool r.err ++ r.result

/-- `RSP = {err, result}` taken apart (R31). -/
def Response.ofWord (w : ResponseWord) : Response where
  err := w.getLsbD 64
  result := w.extractLsb' 0 64

/-! ### The op code table -/

/-- Which command fields an operation reads and how: the columns "Reads", "`p` is" and "`q` is" of the table before R33. -/
inductive Form where
  /-- reads the value operand alone (the twelve counts) -/
  | value
  /-- value, `p` is start, `q` is length -/
  | startLength
  /-- value, `p` is high, `q` is low -/
  | highLow
  /-- value, start, length and the field operand -/
  | startLengthField
  /-- value, high, low and the field operand -/
  | highLowField
deriving DecidableEq, Repr

/-- The form reads `p` and `q`: the column "Can set `err`" says yes for exactly these (R101). -/
def Form.isField : Form → Bool
  | .value => false
  | .startLength => true
  | .highLow => true
  | .startLengthField => true
  | .highLowField => true

/-- The form reads `b` (R34 clause 2). -/
def Form.readsField : Form → Bool
  | .value => false
  | .startLength => false
  | .highLow => false
  | .startLengthField => true
  | .highLowField => true

/-- One row of the op code table (R33): code, mnemonic, operand width W, form, and the instruction with its operands
assembled from the command by R34 (value `a[W-1:0]`, field `b[W-1:0]`, positions as they are). -/
structure Row where
  op : OpCode
  mnemonic : String
  width : Nat
  form : Form
  assemble : Command → Instr

/-- Field extraction (R53 to R56). -/
def extractRows : List Row := [
  ⟨0x12, "extract32", 32, .startLength, fun c => .extract32 (c.a.setWidth 32) c.p.toNat c.q.toNat⟩,
  ⟨0x13, "extract64", 64, .startLength, fun c => .extract64 c.a c.p.toNat c.q.toNat⟩,
  ⟨0x22, "getField32", 32, .highLow, fun c => .getField32 (c.a.setWidth 32) c.p.toNat c.q.toNat⟩,
  ⟨0x23, "getField64", 64, .highLow, fun c => .getField64 c.a c.p.toNat c.q.toNat⟩]

/-- Field deposition (R61 to R64). -/
def depositRows : List Row := [
  ⟨0x32, "deposit32", 32, .startLengthField, fun c => .deposit32 (c.a.setWidth 32) c.p.toNat c.q.toNat (c.b.setWidth 32)⟩,
  ⟨0x33, "deposit64", 64, .startLengthField, fun c => .deposit64 c.a c.p.toNat c.q.toNat c.b⟩,
  ⟨0x42, "setField32", 32, .highLowField, fun c => .setField32 (c.a.setWidth 32) c.p.toNat c.q.toNat (c.b.setWidth 32)⟩,
  ⟨0x43, "setField64", 64, .highLowField, fun c => .setField64 c.a c.p.toNat c.q.toNat c.b⟩]

/-- Population count and zero count (R72 to R79). -/
def popcountRows : List Row := [
  ⟨0x50, "countOnes8", 8, .value, fun c => .countOnes8 (c.a.setWidth 8)⟩,
  ⟨0x51, "countOnes16", 16, .value, fun c => .countOnes16 (c.a.setWidth 16)⟩,
  ⟨0x52, "countOnes32", 32, .value, fun c => .countOnes32 (c.a.setWidth 32)⟩,
  ⟨0x53, "countOnes64", 64, .value, fun c => .countOnes64 c.a⟩,
  ⟨0x60, "countZeros8", 8, .value, fun c => .countZeros8 (c.a.setWidth 8)⟩,
  ⟨0x61, "countZeros16", 16, .value, fun c => .countZeros16 (c.a.setWidth 16)⟩,
  ⟨0x62, "countZeros32", 32, .value, fun c => .countZeros32 (c.a.setWidth 32)⟩,
  ⟨0x63, "countZeros64", 64, .value, fun c => .countZeros64 c.a⟩]

/-- Trailing counts (R87 to R90). -/
def trailingRows : List Row := [
  ⟨0x72, "countTrailingZeros32", 32, .value, fun c => .countTrailingZeros32 (c.a.setWidth 32)⟩,
  ⟨0x73, "countTrailingZeros64", 64, .value, fun c => .countTrailingZeros64 c.a⟩,
  ⟨0x82, "countTrailingOnes32", 32, .value, fun c => .countTrailingOnes32 (c.a.setWidth 32)⟩,
  ⟨0x83, "countTrailingOnes64", 64, .value, fun c => .countTrailingOnes64 c.a⟩]

/-- The twenty defined op codes (R33). -/
def opTable : List Row := extractRows ++ depositRows ++ popcountRows ++ trailingRows

/-- The row of an op code: all eight bits are compared (R38). -/
def lookup (op : OpCode) : Option Row := opTable.find? (fun r => r.op == op)

/-! ### Decoding -/

/-- What a command decodes to (R38: an operation or Reserved). -/
inductive Decoded where
  /-- one of the twenty operations with its operands -/
  | instr (i : Instr)
  /-- one of the 236 reserved op codes, by its number (R36) -/
  | reserved (op : OpCode)
deriving DecidableEq, Repr

/-- The decoder: total, and `op` alone tells which fields are read (R37, R38). -/
def decode (c : Command) : Decoded :=
  match lookup c.op with
  | some r => .instr (r.assemble c)
  | none => .reserved c.op

/-- Decoding of a flat command word (R30, R38). -/
def decodeWord (w : CommandWord) : Decoded := decode (Command.ofWord w)

/-- The instruction of a table word `w`, numbered as spec/opcode_table.json numbers it: `w` is the word CMD itself, the
only instruction length is 152 bits (R37), and bits above `nbits` are 0. A number longer than CMD is no command. -/
def decodeTableWord (nbits w : Nat) : Option Instr :=
  if nbits ≤ 152 ∧ w < 2 ^ 152 then
    match decodeWord (BitVec.ofNat 152 w) with
    | .instr i => some i
    | .reserved _ => none
  else none

/-! ### Encoding -/

/-- The canonical encoding (R41): the mnemonic's op code, each operand in its field, data operands zero-extended, every
field that the text form does not name written as zero. It is meant for well-formed instructions: a position above 255 has
no encoding and must be saturated first (`Instr.saturate`). -/
def encode : Instr → Command
  | .extract32 a start length => ⟨0x12, BitVec.ofNat 8 start, BitVec.ofNat 8 length, 0, a.setWidth 64⟩
  | .extract64 a start length => ⟨0x13, BitVec.ofNat 8 start, BitVec.ofNat 8 length, 0, a⟩
  | .getField32 a high low => ⟨0x22, BitVec.ofNat 8 high, BitVec.ofNat 8 low, 0, a.setWidth 64⟩
  | .getField64 a high low => ⟨0x23, BitVec.ofNat 8 high, BitVec.ofNat 8 low, 0, a⟩
  | .deposit32 a start length b => ⟨0x32, BitVec.ofNat 8 start, BitVec.ofNat 8 length, b.setWidth 64, a.setWidth 64⟩
  | .deposit64 a start length b => ⟨0x33, BitVec.ofNat 8 start, BitVec.ofNat 8 length, b, a⟩
  | .setField32 a high low b => ⟨0x42, BitVec.ofNat 8 high, BitVec.ofNat 8 low, b.setWidth 64, a.setWidth 64⟩
  | .setField64 a high low b => ⟨0x43, BitVec.ofNat 8 high, BitVec.ofNat 8 low, b, a⟩
  | .countOnes8 a => ⟨0x50, 0, 0, 0, a.setWidth 64⟩
  | .countOnes16 a => ⟨0x51, 0, 0, 0, a.setWidth 64⟩
  | .countOnes32 a => ⟨0x52, 0, 0, 0, a.setWidth 64⟩
  | .countOnes64 a => ⟨0x53, 0, 0, 0, a⟩
  | .countZeros8 a => ⟨0x60, 0, 0, 0, a.setWidth 64⟩
  | .countZeros16 a => ⟨0x61, 0, 0, 0, a.setWidth 64⟩
  | .countZeros32 a => ⟨0x62, 0, 0, 0, a.setWidth 64⟩
  | .countZeros64 a => ⟨0x63, 0, 0, 0, a⟩
  | .countTrailingZeros32 a => ⟨0x72, 0, 0, 0, a.setWidth 64⟩
  | .countTrailingZeros64 a => ⟨0x73, 0, 0, 0, a⟩
  | .countTrailingOnes32 a => ⟨0x82, 0, 0, 0, a.setWidth 64⟩
  | .countTrailingOnes64 a => ⟨0x83, 0, 0, 0, a⟩

/-- The canonical command word (R41, R30). -/
def encodeWord (i : Instr) : CommandWord := (encode i).toWord

/-! ### What the host does with a position that no port can carry -/

/-- A software position above 255 is presented as 255 (R34, R124 clause b, D29). -/
def saturate (n : Nat) : Nat := min n 255

/-- The call as the host must present it (R34, R124 clause b). -/
def Instr.saturate : Instr → Instr
  | .extract32 a start length => .extract32 a (Sys2Proof.saturate start) (Sys2Proof.saturate length)
  | .extract64 a start length => .extract64 a (Sys2Proof.saturate start) (Sys2Proof.saturate length)
  | .getField32 a high low => .getField32 a (Sys2Proof.saturate high) (Sys2Proof.saturate low)
  | .getField64 a high low => .getField64 a (Sys2Proof.saturate high) (Sys2Proof.saturate low)
  | .deposit32 a start length b => .deposit32 a (Sys2Proof.saturate start) (Sys2Proof.saturate length) b
  | .deposit64 a start length b => .deposit64 a (Sys2Proof.saturate start) (Sys2Proof.saturate length) b
  | .setField32 a high low b => .setField32 a (Sys2Proof.saturate high) (Sys2Proof.saturate low) b
  | .setField64 a high low b => .setField64 a (Sys2Proof.saturate high) (Sys2Proof.saturate low) b
  | .countOnes8 a => .countOnes8 a
  | .countOnes16 a => .countOnes16 a
  | .countOnes32 a => .countOnes32 a
  | .countOnes64 a => .countOnes64 a
  | .countZeros8 a => .countZeros8 a
  | .countZeros16 a => .countZeros16 a
  | .countZeros32 a => .countZeros32 a
  | .countZeros64 a => .countZeros64 a
  | .countTrailingZeros32 a => .countTrailingZeros32 a
  | .countTrailingZeros64 a => .countTrailingZeros64 a
  | .countTrailingOnes32 a => .countTrailingOnes32 a
  | .countTrailingOnes64 a => .countTrailingOnes64 a

end Sys2Proof
end

