-- ==== Sys2Proof/Machine/State.lean ====
section
/-! DEFINITION. The state of the machine: the unit's input ports, and the response that the last step gave; the reasons a step
can stop; and the state after reset. The unit itself stores nothing (10_state.md R10 to R18). -/

namespace Sys2Proof.Machine

/-- The unit has no storage (R10, R13 to R17). Its input ports hold the command that the host presents (R11). Its output
ports `err` and `result` are no fields: they are combinational (R14), so they are functions of `inp` alone (`State.err`,
`State.result`, in Machine/Ports.lean), and change as soon as `inp` does. `response` is no port and no storage of the unit: it is
the model's record of what the last step gave the host, the one response of rule R6 (log entry 1). -/
structure State where
  /-- the five input ports `op`, `p`, `q`, `b`, `a` (R11), driven by the host -/
  inp : Command
  /-- the response that the step of the command on the inputs gave; none before that command is stepped -/
  response : Option Response
deriving DecidableEq, Repr

/-- The unit never stops with a fault: `InvalidRange` is a response, not a trap, and there is no hang, trap, interrupt or
privilege to violate (R102, R103, R105, R107, R109). So this type has no constructor, and no step can answer one. -/
inductive Fault where
deriving DecidableEq, Repr

/-- Why the model gives a command no step. -/
inductive Refusal where
  /-- Raised by an arm of `exec` for an instruction that has no meaning yet (safe). No arm raises it now. -/
  | notModelled (mnemonic : String)
  /-- Raised by `step` when the command's op code is one of the 236 reserved ones (safe): "A model must refuse such a
  command (give it no step and mark the refusal)" (R36, R110, D15). -/
  | reservedOpCode (op : OpCode)
deriving DecidableEq, Repr

/-- The state after reset. The unit has nothing to reset (R18, R120): the input ports have no reset value in the spec, and all
five are DESIGN CHOICE zero (unsafe; log entry 2). No step has given a response (log entry 3). Op code 0 is reserved, so nothing
runs until the host presents a command (log entry 4). -/
def State.reset : State where
  inp := ⟨0, 0, 0, 0, 0⟩
  response := none

end Sys2Proof.Machine
end

