-- ==== Sys2Proof/Machine/Ops.lean ====
section
/-! DEFINITION. The named operations over the ports: the host's presenting of a command, the unit's giving of a response,
and the one error, `InvalidRange`. There is no register and no memory to operate on (R10, R16, R20). -/

namespace Sys2Proof.Machine

/-- The host puts a command on the input ports (R27: "a change of the inputs is a new command"; R124 clause c: all five
ports hold one command). The new command has been given no response yet: the response to an earlier command is not kept (R14:
`err` is "not sticky"). -/
def State.present (s : State) (c : Command) : State := { s with inp := c, response := none }

/-- `zext_64`: a W-bit value on a 64-bit port (R12, R31, D13). -/
def zext64 {w : Nat} (v : BitVec w) : Data := v.setWidth 64

/-- The unit answers the command with the pair (`err`, `result`). The input ports are the host's and stay (R20, R103: nothing else
happens). The pair is also what the output ports show while this command stands on the inputs (`State.outputs`). -/
def drive (r : Response) (s : State) : Host.Outcome State Fault Refusal := .next { s with response := some r }

/-- `result <- v; err <- 0` (00_scope.md section 4). -/
def succeed (result : Data) (s : State) : Host.Outcome State Fault Refusal := drive ⟨false, result⟩ s

/-- `raise InvalidRange`: `result <- zext_64(value); err <- 1`, and nothing else is recorded (R102). This is the whole of
taking an error on this hardware: no control transfer, no saved state, no mode (R103). There is no return from it, because
there is nothing to restore (R106). -/
def raiseInvalidRange {w : Nat} (value : BitVec w) (s : State) : Host.Outcome State Fault Refusal :=
  drive ⟨true, zext64 value⟩ s

end Sys2Proof.Machine
end

