-- ==== Sys2Proof/Machine/Operands.lean ====
section
/-! DEFINITION. The operand forms: the range check of a (start, length) descriptor, the check and translation of a
(high, low) descriptor, and the mask generator (40_extract.md R50, R51, R52). Positions are natural numbers (R2). -/

namespace Sys2Proof.Machine

/-- `RangeOK_W(start, length)` (R50). The subtraction is only decisive when `start ≤ W - 1`. -/
def rangeOK (w start length : Nat) : Bool := decide (start ≤ w - 1) && decide (length ≤ w - start)

/-- `BoundsOK_W(high, low)` (R52). -/
def boundsOK (w high low : Nat) : Bool := decide (high ≤ w - 1) && decide (low ≤ w - 1) && decide (low ≤ high)

/-- The length of the field from `low` to `high`, both included; asked for only after `boundsOK` (R34 clause 4, R52). -/
def fieldLength (high low : Nat) : Nat := high - low + 1

/-- `maskOfWidth_W(n)` (R51): the low `n` bits. Width 0 is a case of its own, so no shift by W is ever evaluated (R5, U2). -/
def maskOfWidth (w n : Nat) : BitVec w := if n = 0 then 0#w else BitVec.allOnes w >>> (w - n)

/-- A count on the result port (R12: "`result` is the count as an unsigned 64-bit number"). -/
def countData (n : Nat) : Data := BitVec.ofNat 64 n

end Sys2Proof.Machine
end

