-- ==== Sys2Proof/Machine/Flags.lean ====
section
/-! DEFINITION. The one flag, `err` (10_state.md R14): when it is 1 for each descriptor form, and the response that goes
with each value of it (60_exceptions.md R101, R102). The count operations never set it. -/

namespace Sys2Proof.Machine

/-- `err` of a (start, length) operation (R50, R101). -/
def errStartLength (w start length : Nat) : Bool := !rangeOK w start length

/-- `err` of a (high, low) operation (R52, R101); the delegated start/length check comes after and cannot fail (R104). -/
def errHighLow (w high low : Nat) : Bool := !boundsOK w high low

/-- The response of a field operation: the echo with `err = 1`, or the zero-extended result with `err = 0` (R53, R61). The
error depends on `err` alone, never on a data operand's value (R101). -/
def fieldOutcome {w : Nat} (err : Bool) (value result : BitVec w) (s : State) : Host.Outcome State Fault Refusal :=
  if err then raiseInvalidRange value s else succeed (zext64 result) s

/-- The response of a count operation: `err = 0` always (R12, R14, R101). -/
def countOutcome (n : Nat) (s : State) : Host.Outcome State Fault Refusal := succeed (countData n) s

end Sys2Proof.Machine
end

