-- ==== Sys2Proof/Machine/Deposit.lean ====
section
/-! DEFINITION. Field deposition: the merge `Deposit_W` and the four meanings (41_deposit.md R60 to R64). -/

namespace Sys2Proof.Machine

/-- `Deposit_W(value, start, length, field)`, with precondition `rangeOK w start length` (R60). -/
def depositField {w : Nat} (value : BitVec w) (start length : Nat) (field : BitVec w) : BitVec w :=
  let mask := maskOfWidth w length <<< start
  (value &&& ~~~mask) ||| ((field <<< start) &&& mask)

/-- `deposit32 a, start, length, b` (R61). -/
def execDeposit32 (a : BitVec 32) (start length : Nat) (b : BitVec 32) (s : State) : Host.Outcome State Fault Refusal :=
  fieldOutcome (errStartLength 32 start length) a (depositField a start length b) s

/-- `deposit64 a, start, length, b` (R62). -/
def execDeposit64 (a : BitVec 64) (start length : Nat) (b : BitVec 64) (s : State) : Host.Outcome State Fault Refusal :=
  fieldOutcome (errStartLength 64 start length) a (depositField a start length b) s

/-- `setField32 a, high, low, b` (R63). -/
def execSetField32 (a : BitVec 32) (high low : Nat) (b : BitVec 32) (s : State) : Host.Outcome State Fault Refusal :=
  fieldOutcome (errHighLow 32 high low) a (depositField a low (fieldLength high low) b) s

/-- `setField64 a, high, low, b` (R64). -/
def execSetField64 (a : BitVec 64) (high low : Nat) (b : BitVec 64) (s : State) : Host.Outcome State Fault Refusal :=
  fieldOutcome (errHighLow 64 high low) a (depositField a low (fieldLength high low) b) s

end Sys2Proof.Machine
end

