-- ==== Sys2Proof/Machine/Extract.lean ====
section
/-! DEFINITION. Field extraction: the core function `Extract_W` and the four meanings (40_extract.md R53 to R56). -/

namespace Sys2Proof.Machine

/-- `Extract_W(value, start, length)`, with precondition `rangeOK w start length` (40_extract.md section 1). -/
def extractField {w : Nat} (value : BitVec w) (start length : Nat) : BitVec w :=
  if length = 0 then 0#w else (value >>> start) &&& maskOfWidth w length

/-- `extract32 a, start, length` (R53). -/
def execExtract32 (a : BitVec 32) (start length : Nat) (s : State) : Host.Outcome State Fault Refusal :=
  fieldOutcome (errStartLength 32 start length) a (extractField a start length) s

/-- `extract64 a, start, length` (R54). -/
def execExtract64 (a : BitVec 64) (start length : Nat) (s : State) : Host.Outcome State Fault Refusal :=
  fieldOutcome (errStartLength 64 start length) a (extractField a start length) s

/-- `getField32 a, high, low` (R55). -/
def execGetField32 (a : BitVec 32) (high low : Nat) (s : State) : Host.Outcome State Fault Refusal :=
  fieldOutcome (errHighLow 32 high low) a (extractField a low (fieldLength high low)) s

/-- `getField64 a, high, low` (R56). -/
def execGetField64 (a : BitVec 64) (high low : Nat) (s : State) : Host.Outcome State Fault Refusal :=
  fieldOutcome (errHighLow 64 high low) a (extractField a low (fieldLength high low)) s

end Sys2Proof.Machine
end

