-- ==== Sys2Proof/Machine/Popcount.lean ====
section
/-! DEFINITION. Population count and zero count: the normative value `PopCount_W` and the eight meanings
(42_popcount.md R70, R72 to R79). The reference tree of R71 is in Machine/Reference.lean. -/

namespace Sys2Proof.Machine

/-- `PopCount_W(v)`: "the number of positions i in 0 to W-1 with `v[i] = 1`" (R70). The value is normative, the tree of R71
informative (D28). -/
def popCount {w : Nat} (v : BitVec w) : Nat := (List.range w).countP (fun i => v.getLsbD i)

/-- `countOnes8 a` (R72). -/
def execCountOnes8 (a : BitVec 8) (s : State) : Host.Outcome State Fault Refusal := countOutcome (popCount a) s

/-- `countOnes16 a` (R73). -/
def execCountOnes16 (a : BitVec 16) (s : State) : Host.Outcome State Fault Refusal := countOutcome (popCount a) s

/-- `countOnes32 a` (R74). -/
def execCountOnes32 (a : BitVec 32) (s : State) : Host.Outcome State Fault Refusal := countOutcome (popCount a) s

/-- `countOnes64 a` (R75). -/
def execCountOnes64 (a : BitVec 64) (s : State) : Host.Outcome State Fault Refusal := countOutcome (popCount a) s

/-- `countZeros8 a` (R76). -/
def execCountZeros8 (a : BitVec 8) (s : State) : Host.Outcome State Fault Refusal := countOutcome (8 - popCount a) s

/-- `countZeros16 a` (R77). -/
def execCountZeros16 (a : BitVec 16) (s : State) : Host.Outcome State Fault Refusal := countOutcome (16 - popCount a) s

/-- `countZeros32 a` (R78). -/
def execCountZeros32 (a : BitVec 32) (s : State) : Host.Outcome State Fault Refusal := countOutcome (32 - popCount a) s

/-- `countZeros64 a` (R79). -/
def execCountZeros64 (a : BitVec 64) (s : State) : Host.Outcome State Fault Refusal := countOutcome (64 - popCount a) s

end Sys2Proof.Machine
end

