-- ==== Sys2Proof/Machine/Trailing.lean ====
section
/-! DEFINITION. Trailing-zero and trailing-one count: the normative value `Ctz_W` and the four meanings
(43_trailing.md R85, R87 to R90). The reference structures of R86 and R88 are in Machine/Reference.lean. -/

namespace Sys2Proof.Machine

/-- `Ctz_W(v)`: "the smallest i in 0 to W-1 with `v[i] = 1` if `v ≠ 0`, and W if `v = 0`" (R85). The value is normative, the
halving search of R86 informative (D28). -/
def ctz {w : Nat} (v : BitVec w) : Nat := ((List.range w).find? (fun i => v.getLsbD i)).getD w

/-- `countTrailingZeros32 a` (R87). -/
def execCountTrailingZeros32 (a : BitVec 32) (s : State) : Host.Outcome State Fault Refusal := countOutcome (ctz a) s

/-- `countTrailingZeros64 a` (R88). -/
def execCountTrailingZeros64 (a : BitVec 64) (s : State) : Host.Outcome State Fault Refusal := countOutcome (ctz a) s

/-- `countTrailingOnes32 a` (R89). -/
def execCountTrailingOnes32 (a : BitVec 32) (s : State) : Host.Outcome State Fault Refusal := countOutcome (ctz (~~~a)) s

/-- `countTrailingOnes64 a` (R90). -/
def execCountTrailingOnes64 (a : BitVec 64) (s : State) : Host.Outcome State Fault Refusal := countOutcome (ctz (~~~a)) s

end Sys2Proof.Machine
end

