-- ==== Sys2Proof/Machine/Dispatch.lean ====
section
/-! DEFINITION. One arm per instruction (30_encoding.md R33), each one call of its meaning. -/

namespace Sys2Proof.Machine

def exec (i : Instr) (s : State) : Host.Outcome State Fault Refusal :=
  match i with
  | .extract32 a p q => Sys2Proof.Machine.execExtract32 a p q s
  | .extract64 a p q => Sys2Proof.Machine.execExtract64 a p q s
  | .getField32 a p q => Sys2Proof.Machine.execGetField32 a p q s
  | .getField64 a p q => Sys2Proof.Machine.execGetField64 a p q s
  | .deposit32 a p q b => Sys2Proof.Machine.execDeposit32 a p q b s
  | .deposit64 a p q b => Sys2Proof.Machine.execDeposit64 a p q b s
  | .setField32 a p q b => Sys2Proof.Machine.execSetField32 a p q b s
  | .setField64 a p q b => Sys2Proof.Machine.execSetField64 a p q b s
  | .countOnes8 a => Sys2Proof.Machine.execCountOnes8 a s
  | .countOnes16 a => Sys2Proof.Machine.execCountOnes16 a s
  | .countOnes32 a => Sys2Proof.Machine.execCountOnes32 a s
  | .countOnes64 a => Sys2Proof.Machine.execCountOnes64 a s
  | .countZeros8 a => Sys2Proof.Machine.execCountZeros8 a s
  | .countZeros16 a => Sys2Proof.Machine.execCountZeros16 a s
  | .countZeros32 a => Sys2Proof.Machine.execCountZeros32 a s
  | .countZeros64 a => Sys2Proof.Machine.execCountZeros64 a s
  | .countTrailingZeros32 a => Sys2Proof.Machine.execCountTrailingZeros32 a s
  | .countTrailingZeros64 a => Sys2Proof.Machine.execCountTrailingZeros64 a s
  | .countTrailingOnes32 a => Sys2Proof.Machine.execCountTrailingOnes32 a s
  | .countTrailingOnes64 a => Sys2Proof.Machine.execCountTrailingOnes64 a s

end Sys2Proof.Machine
end

