-- ==== Sys2Proof/Machine/Step.lean ====
section
/-! DEFINITION. One step: the unit decodes the command on its input ports and drives its response (00_scope.md R6). The unit
fetches nothing (R27): the host puts the next command there. -/

namespace Sys2Proof.Machine

/-- The command on the input ports is the command executed (R27). A reserved op code is refused (R36). -/
def step (s : State) : Host.Outcome State Fault Refusal :=
  match decode s.inp with
  | .instr i => exec i s
  | .reserved op => .refused (.reservedOpCode op)

/-- The host presents the command word `w` (numbered as CMD, R30; the bits of `w` above `_nbits` are 0 already), so that the next step
runs it. There is no memory to load and no program counter to set (log entry 4). -/
def State.withFetchWord (s : State) (_nbits w : Nat) : State :=
  s.present (Command.ofWord (BitVec.ofNat 152 w))

end Sys2Proof.Machine
end

