-- ==== Sys2Proof/Machine/Reference.lean ====
section
/-! DEFINITION. The reference structures that the source describes: the population-count tree (42_popcount.md R71) and the
halving search of the trailing-zero detector with its 64-bit split (43_trailing.md R86, R88). They are informative (D28): the
meanings use `popCount` and `ctz`, and the obligations state that these structures compute the same functions. -/

namespace Sys2Proof.Machine

/-- `M_k` of stage `k + 1` at W = 64, whose input groups have `g = 2^k` bits (the table before R71; PRESUMED constants, G1). -/
def stageMask64 : Nat → BitVec 64
  | 0 => 0x5555555555555555#64
  | 1 => 0x3333333333333333#64
  | 2 => 0x0F0F0F0F0F0F0F0F#64
  | 3 => 0x00FF00FF00FF00FF#64
  | 4 => 0x0000FFFF0000FFFF#64
  | 5 => 0x00000000FFFFFFFF#64
  | _ + 6 => BitVec.allOnes 64

/-- One stage: every group is replaced by the sum of its low and its high half, with one mask, one shift and one add (R71). -/
def swarStage {w : Nat} (k : Nat) (x : BitVec w) : BitVec w :=
  let m := (stageMask64 k).setWidth w
  (x &&& m) + ((x >>> (2 ^ k)) &&& m)

/-- `x_k`, the word after `k` stages; `x_0 = v` (R71). -/
def swarWord {w : Nat} (v : BitVec w) : Nat → BitVec w
  | 0 => v
  | k + 1 => swarStage k (swarWord v k)

/-- The tree at width W: log2 W stages, six at W = 64 (R71, C4, D32). -/
def swarPopCount {w : Nat} (v : BitVec w) : Nat := (swarWord v (Nat.log2 w)).toNat

/-- One test-and-shift step of the halving search: if the low `g` bits of `x` are zero, count them and shift them out (R86). -/
def halvingStep (g : Nat) (xn : BitVec 32 × Nat) : BitVec 32 × Nat :=
  if xn.1 &&& BitVec.ofNat 32 (2 ^ g - 1) = 0#32 then (xn.1 >>> g, xn.2 + g) else xn

/-- `Ctz32ref` (the listing before R86): five steps, then one more test of the lowest bit, reached only by `v = 0`. -/
def ctz32ref (v : BitVec 32) : Nat :=
  let xn := halvingStep 1 (halvingStep 2 (halvingStep 4 (halvingStep 8 (halvingStep 16 (v, 0)))))
  if xn.1 &&& 1#32 = 0#32 then xn.2 + 1 else xn.2

/-- The 64-bit split of R88: 32 more than the count of the high half when the low half is zero, else that of the low half. -/
def ctz64ref (v : BitVec 64) : Nat :=
  if v.extractLsb' 0 32 = 0#32 then 32 + ctz32ref (v.extractLsb' 32 32) else ctz32ref (v.extractLsb' 0 32)

end Sys2Proof.Machine
end

