-- ==== Sys2Proof/Machine/Text.lean ====
section
/-! DEFINITION. The text form of commands and responses: mnemonics, operand order, the other spellings of the operations, a
printer and an assembler over operand numbers (30_encoding.md R39, R40, R41). -/

namespace Sys2Proof

/-- The mnemonic, spelled as in R33 (R39). -/
def Instr.mnemonic : Instr → String
  | .extract32 _ _ _ => "extract32"
  | .extract64 _ _ _ => "extract64"
  | .getField32 _ _ _ => "getField32"
  | .getField64 _ _ _ => "getField64"
  | .deposit32 _ _ _ _ => "deposit32"
  | .deposit64 _ _ _ _ => "deposit64"
  | .setField32 _ _ _ _ => "setField32"
  | .setField64 _ _ _ _ => "setField64"
  | .countOnes8 _ => "countOnes8"
  | .countOnes16 _ => "countOnes16"
  | .countOnes32 _ => "countOnes32"
  | .countOnes64 _ => "countOnes64"
  | .countZeros8 _ => "countZeros8"
  | .countZeros16 _ => "countZeros16"
  | .countZeros32 _ => "countZeros32"
  | .countZeros64 _ => "countZeros64"
  | .countTrailingZeros32 _ => "countTrailingZeros32"
  | .countTrailingZeros64 _ => "countTrailingZeros64"
  | .countTrailingOnes32 _ => "countTrailingOnes32"
  | .countTrailingOnes64 _ => "countTrailingOnes64"

/-- The operands as numbers, in the source's parameter order `a`, `a, p, q` or `a, p, q, b` (R39). -/
def Instr.operands : Instr → List Nat
  | .extract32 a start length => [a.toNat, start, length]
  | .extract64 a start length => [a.toNat, start, length]
  | .getField32 a high low => [a.toNat, high, low]
  | .getField64 a high low => [a.toNat, high, low]
  | .deposit32 a start length b => [a.toNat, start, length, b.toNat]
  | .deposit64 a start length b => [a.toNat, start, length, b.toNat]
  | .setField32 a high low b => [a.toNat, high, low, b.toNat]
  | .setField64 a high low b => [a.toNat, high, low, b.toNat]
  | .countOnes8 a => [a.toNat]
  | .countOnes16 a => [a.toNat]
  | .countOnes32 a => [a.toNat]
  | .countOnes64 a => [a.toNat]
  | .countZeros8 a => [a.toNat]
  | .countZeros16 a => [a.toNat]
  | .countZeros32 a => [a.toNat]
  | .countZeros64 a => [a.toNat]
  | .countTrailingZeros32 a => [a.toNat]
  | .countTrailingZeros64 a => [a.toNat]
  | .countTrailingOnes32 a => [a.toNat]
  | .countTrailingOnes64 a => [a.toNat]

/-- The row of a mnemonic; mnemonics are case-sensitive (R39). -/
def rowOfMnemonic (m : String) : Option Row := opTable.find? (fun r => r.mnemonic == m)

/-- The instruction of a mnemonic and its operand numbers (R39, R41). It refuses an unknown mnemonic, a wrong number of
operands, a data operand that does not fit in W bits and a position above 255. -/
def assembleText (m : String) (operands : List Nat) : Option Instr :=
  match rowOfMnemonic m with
  | none => none
  | some r =>
    let fits := fun n => decide (n < 2 ^ r.width)
    match operands with
    | [a] => if !r.form.isField && fits a then some (r.assemble ⟨r.op, 0, 0, 0, BitVec.ofNat 64 a⟩) else none
    | [a, p, q] =>
      if r.form.isField && !r.form.readsField && fits a && fitsPort p && fitsPort q then
        some (r.assemble ⟨r.op, BitVec.ofNat 8 p, BitVec.ofNat 8 q, 0, BitVec.ofNat 64 a⟩)
      else none
    | [a, p, q, b] =>
      if r.form.readsField && fits a && fits b && fitsPort p && fitsPort q then
        some (r.assemble ⟨r.op, BitVec.ofNat 8 p, BitVec.ofNat 8 q, BitVec.ofNat 64 b, BitVec.ofNat 64 a⟩)
      else none
    | _ => none

/-- The source's names of the families and their spellings: each stands for the family at a width given by context (R40, C3). -/
def familySpellings : List (String × String) := [
  ("extract", "extract"), ("Extract", "extract"), ("getField", "getField"), ("GetField", "getField"),
  ("deposit", "deposit"), ("Deposit", "deposit"), ("setField", "setField"), ("SetField", "setField"),
  ("countOnes", "countOnes"), ("countZeros", "countZeros"), ("countTrailingZeros", "countTrailingZeros"),
  ("countTrailingOnes", "countTrailingOnes")]

/-- The mnemonic that a spelling stands for when the operand width is `w` (R40): a mnemonic is itself, `CountTrailZero32`
is `countTrailingZeros32`, and a family's name takes the width; where the family has no operation of that width there is
none (R1). No spelling denotes a further operation. -/
def mnemonicOfSpelling (name : String) (w : Nat) : Option String :=
  if name = "CountTrailZero32" then some "countTrailingZeros32"
  else
    let full := match familySpellings.find? (fun e => e.1 == name) with
      | some e => e.2 ++ Nat.repr w
      | none => name
    (rowOfMnemonic full).map (·.mnemonic)

/-- A number in upper-case hexadecimal, padded with zeros to `digits` digits. -/
def hexText (digits n : Nat) : String :=
  let ds := (Nat.toDigits 16 n).map Char.toUpper
  "0x" ++ String.ofList (List.replicate (digits - ds.length) '0' ++ ds)

/-- A command in text form (R39), with the number bases that 95_test_vectors.md prints (log entry 15): `a` in W/4
hexadecimal digits, `b` in hexadecimal, positions in decimal. -/
def Instr.text (i : Instr) : String :=
  match rowOfMnemonic i.mnemonic, i.operands with
  | some r, [a] => i.mnemonic ++ " " ++ hexText (r.width / 4) a
  | some r, [a, p, q] => i.mnemonic ++ " " ++ hexText (r.width / 4) a ++ ", " ++ Nat.repr p ++ ", " ++ Nat.repr q
  | some r, [a, p, q, b] =>
    i.mnemonic ++ " " ++ hexText (r.width / 4) a ++ ", " ++ Nat.repr p ++ ", " ++ Nat.repr q ++ ", " ++ hexText 1 b
  | _, _ => i.mnemonic

/-- A response in text form: `-> result`, or `-> result, InvalidRange` when `err = 1` (R39); counts are printed in decimal,
as 95_test_vectors.md prints them (log entry 15). -/
def Response.text (form : Form) (r : Response) : String :=
  let n := if form.isField then hexText 1 r.result.toNat else Nat.repr r.result.toNat
  "-> " ++ n ++ (if r.err then ", InvalidRange" else "")

end Sys2Proof
end

