-- ==== Sys2Proof/Machine/Ports.lean ====
section
/-! DEFINITION. The output ports (10_state.md R12, R14): combinational functions of the command on the input ports. -/

namespace Sys2Proof.Machine

/-- `Exec` of R6, a partial function on commands: the response that the meaning of the command's operation gives. A command
with a reserved op code has none (R36, U1). -/
def respond (c : Command) : Option Response :=
  match step ⟨c, none⟩ with
  | .next s => s.response
  | .fault _ => none
  | .refused _ => none

/-- What the unit drives on its two output ports: `Exec` of the command now on the inputs, and nothing stored (R12, R14, R17). The
spec says nothing of the outputs under a reserved op code, so there they are none. -/
def State.outputs (s : State) : Option Response := respond s.inp

/-- The output port `err` (R14: "a combinational output of the current command, not a stored bit"). -/
def State.err (s : State) : Option Bool := s.outputs.map Response.err

/-- The output port `result` (R12). -/
def State.result (s : State) : Option Data := s.outputs.map Response.result

end Sys2Proof.Machine
end

