-- ==== Sys2Proof/Machine/Driver.lean ====
section
/-! DEFINITION. What the host sees of the unit over several commands: the responses to a stream of commands, and to the commands
of several requesters that share the unit (20_memory.md R25, 60_exceptions.md R108, 70_reset_and_hazards.md
R124). -/

namespace Sys2Proof.Machine

/-- A stream of commands issued in order: the responses in order, one each, and the unit as it is left; none when a command
is refused (R25, R124 clause c). -/
def serve : List Command → State → Option (List Response × State)
  | [], s => some ([], s)
  | c :: cs, s =>
    match step (s.present c) with
    | .next s' => s'.response.bind (fun x => (serve cs s').map (fun rt => (x :: rt.1, rt.2)))
    | .fault _ => none
    | .refused _ => none

/-- The same with the commands of several requesters interleaved in any way: each response goes to the requester that issued
the command (R108). The number names the requester to the host; the unit does not see it. -/
def serveTagged : List (Nat × Command) → State → Option (List (Nat × Response) × State)
  | [], s => some ([], s)
  | (n, c) :: cs, s =>
    match step (s.present c) with
    | .next s' => s'.response.bind (fun x => (serveTagged cs s').map (fun rt => ((n, x) :: rt.1, rt.2)))
    | .fault _ => none
    | .refused _ => none

end Sys2Proof.Machine
end

