-- ==== Sys2Proof/Safety.lean ====
section
/-! DEFINITION. What claims call a legal response, and a response that agrees with the output ports. -/

namespace Sys2Proof.Machine

/-- What R12, R31, R101 and R102 say of every response to a command of this row, whatever the operands: the result has no
bit at or above W; an error comes only from a field operation and then echoes `a[W-1:0]`; a count is at most W. -/
def legalResponse (r : Row) (c : Command) (x : Response) : Prop :=
  x.result.toNat < 2 ^ r.width ∧
  (x.err = true → r.form.isField = true ∧ x.result.toNat = c.a.toNat % 2 ^ r.width) ∧
  (r.form.isField = false → x.result.toNat ≤ r.width)

/-- The recorded response is legal for the command on the inputs (true of any state whose op code is reserved: the spec says
nothing there, R36). -/
def State.ResponseLegal (s : State) : Prop :=
  ∀ r x, lookup s.inp.op = some r → s.response = some x → legalResponse r s.inp x

/-- The recorded response, if there is one, is what the output ports show: never that of an earlier command (R14). -/
def State.Coherent (s : State) : Prop := ∀ x, s.response = some x → s.outputs = some x

/-- The command on the inputs has been given its response: the record and the output ports agree (R14, R23). -/
def State.Settled (s : State) : Prop := s.response = s.outputs

end Sys2Proof.Machine
end

