-- ==== Sys2Proof/Certificates/Slice0/Obligations.lean ====
section
/-! DEFINITION. The statements for the provers. Values are stated in arithmetic of natural numbers and bit by bit, not through
the functions that the meanings use, unless the statement is about such a function. -/

namespace Sys2Proof.Claims

open Sys2Proof Sys2Proof.Machine

/-- The echo of R102: the value operand, zero-extended, with `err = 1`. -/
def echo (v : Nat) : Response := ⟨true, BitVec.ofNat 64 v⟩

/-- The response of an extraction by (start, length) on the W-bit value `v` (R50, R53). -/
def extractResponse (W v start length : Nat) : Response :=
  if start ≤ W - 1 ∧ length ≤ W - start then ⟨false, BitVec.ofNat 64 (v / 2 ^ start % 2 ^ length)⟩ else echo v

/-- The response of an extraction by (high, low) on the W-bit value `v` (R52, R55). -/
def getFieldResponse (W v high low : Nat) : Response :=
  if high ≤ W - 1 ∧ low ≤ W - 1 ∧ high ≥ low then ⟨false, BitVec.ofNat 64 (v / 2 ^ low % 2 ^ (high - low + 1))⟩ else echo v

/-- `v` with its `length` bits from bit `start` on replaced by the low `length` bits of `f`: what stands below the field, the
field, what stands above it (R60). -/
def merged (v start length f : Nat) : Nat :=
  v % 2 ^ start + (f % 2 ^ length) * 2 ^ start + v / 2 ^ (start + length) * 2 ^ (start + length)

/-- The response of a deposition by (start, length) (R50, R61). -/
def depositResponse (W v start length f : Nat) : Response :=
  if start ≤ W - 1 ∧ length ≤ W - start then ⟨false, BitVec.ofNat 64 (merged v start length f)⟩ else echo v

/-- The response of a deposition by (high, low) (R52, R63). -/
def setFieldResponse (W v high low f : Nat) : Response :=
  if high ≤ W - 1 ∧ low ≤ W - 1 ∧ high ≥ low then ⟨false, BitVec.ofNat 64 (merged v low (high - low + 1) f)⟩ else echo v

/-- The sum of the bits `v[i]` for i from 0 to W-1 (R70). -/
def bitSum (W v : Nat) : Nat := ((List.range W).map (fun i => v / 2 ^ i % 2)).sum

/-- `n` is the number of consecutive bits of value `bit`, starting from bit 0, of the W-bit value `v` (R85, R89). -/
def IsRun (bit : Bool) (W v n : Nat) : Prop :=
  n ≤ W ∧ (∀ i, i < n → v.testBit i = bit) ∧ (n < W → v.testBit n = !bit)

/-- The outcome is a next state that differs in the recorded response alone, with `err = 0` and the length of the run of `bit`s. -/
def RunOutcome (bit : Bool) (W v : Nat) (s : State) (o : Host.Outcome State Fault Refusal) : Prop :=
  ∃ n, IsRun bit W v n ∧ o = .next { s with response := some ⟨false, BitVec.ofNat 64 n⟩ }

/-- The twenty op codes of R33, with their mnemonics and operand widths. -/
def definedOps : List (OpCode × String × Nat) := [
  (0x12, "extract32", 32), (0x13, "extract64", 64), (0x22, "getField32", 32), (0x23, "getField64", 64),
  (0x32, "deposit32", 32), (0x33, "deposit64", 64), (0x42, "setField32", 32), (0x43, "setField64", 64),
  (0x50, "countOnes8", 8), (0x51, "countOnes16", 16), (0x52, "countOnes32", 32), (0x53, "countOnes64", 64),
  (0x60, "countZeros8", 8), (0x61, "countZeros16", 16), (0x62, "countZeros32", 32), (0x63, "countZeros64", 64),
  (0x72, "countTrailingZeros32", 32), (0x73, "countTrailingZeros64", 64),
  (0x82, "countTrailingOnes32", 32), (0x83, "countTrailingOnes64", 64)]

/-- The op codes of R33. -/
def definedCodes : List OpCode := definedOps.map Prod.fst

/-- The operation fails: it completes with `err = 1` and the echo of its W-bit value operand `v` (R102). -/
def Fails (v : Nat) (i : Instr) (s : State) : Prop := exec i s = .next { s with response := some (echo v) }

/-- The operation succeeds with result `n`: it completes with `err = 0`. -/
def Answers (i : Instr) (s : State) (n : Nat) : Prop := exec i s = .next { s with response := some ⟨false, BitVec.ofNat 64 n⟩ }

/-- The descriptor check of the command's operation fails (the table before R101). -/
def InvalidRangeCause (c : Command) : Prop :=
  (c.op = 0x12 ∨ c.op = 0x32) ∧ (c.p.toNat > 31 ∨ c.q.toNat > 32 - c.p.toNat) ∨
  (c.op = 0x13 ∨ c.op = 0x33) ∧ (c.p.toNat > 63 ∨ c.q.toNat > 64 - c.p.toNat) ∨
  (c.op = 0x22 ∨ c.op = 0x42) ∧ (c.p.toNat > 31 ∨ c.q.toNat > 31 ∨ c.p.toNat < c.q.toNat) ∨
  (c.op = 0x23 ∨ c.op = 0x43) ∧ (c.p.toNat > 63 ∨ c.q.toNat > 63 ∨ c.p.toNat < c.q.toNat)

/-- The laws of R80 at width W, for the two count operations of that width. -/
def CountLawsAt (W : Nat) (ones zeros : BitVec W → Instr) : Prop :=
  ∀ (v : BitVec W) (s : State), ∃ n z, Answers (ones v) s n ∧ Answers (zeros v) s z ∧ n + z = W ∧
    Answers (ones (~~~v)) s z ∧ Answers (.countOnes64 (v.setWidth 64)) s n ∧
    Answers (.countZeros64 (v.setWidth 64)) s (z + (64 - W))

/-- The laws of R91 at width W, for the two trailing counts of that width. -/
def TrailingLawsAt (W : Nat) (zeros ones : BitVec W → Instr) : Prop :=
  ∀ (v : BitVec W) (s : State), ∃ n m, Answers (zeros v) s n ∧ Answers (ones v) s m ∧ Answers (zeros (~~~v)) s m ∧
    (v ≠ 0#W → n < W ∧ v.getLsbD n = true ∧ ∀ i, i < n → v.getLsbD i = false) ∧ (v = 0#W → n = W) ∧
    ((n = 0 ∧ m ≠ 0) ∨ (n ≠ 0 ∧ m = 0))

end Sys2Proof.Claims

open Sys2Proof Sys2Proof.Machine Sys2Proof.Claims

/-! ### Encoding -/

/-- R41, R38: decoding the canonical encoding of a well-formed instruction gives it back, every operand at every value. -/
def Obligations.DecodeOfEncodeIsIdentity : Prop :=
  ∀ i : Instr, i.wellFormed = true → decodeWord (encodeWord i) = .instr i

/-- R35, R41: what a word decodes to is well-formed, its canonical word decodes to the same instruction, and the canonical
word has the op code of the word, its operand bits, and zero in every bit that the operation does not read. -/
def Obligations.EncodeOfDecodeIsCanonical : Prop :=
  ∀ (c : Command) (i : Instr) (r : Row), decode c = .instr i → lookup c.op = some r →
    i.wellFormed = true ∧ decode (encode i) = .instr i ∧ (encode i).op = c.op ∧
    (encode i).a.toNat = c.a.toNat % 2 ^ r.width ∧
    (encode i).b.toNat = (if r.form.readsField = true then c.b.toNat % 2 ^ r.width else 0) ∧
    (encode i).p = (if r.form.isField = true then c.p else 0) ∧
    (encode i).q = (if r.form.isField = true then c.q else 0)

/-- R30: the command word holds its five fields where the table of CMD puts them, and word and ports are the same thing. -/
def Obligations.CommandWordLayout : Prop :=
  (∀ w : CommandWord,
    (Command.ofWord w).op.toNat = w.toNat / 2 ^ 144 ∧
    (Command.ofWord w).p.toNat = w.toNat / 2 ^ 136 % 2 ^ 8 ∧
    (Command.ofWord w).q.toNat = w.toNat / 2 ^ 128 % 2 ^ 8 ∧
    (Command.ofWord w).b.toNat = w.toNat / 2 ^ 64 % 2 ^ 64 ∧
    (Command.ofWord w).a.toNat = w.toNat % 2 ^ 64 ∧
    (Command.ofWord w).toWord = w) ∧
  (∀ c : Command, Command.ofWord c.toWord = c)

/-- R31: RSP is `{err, result}`; the response to an operation of width W has `result[63:W] = 0`, and a count is at most W. -/
def Obligations.ResponseWordLayout : Prop :=
  (∀ r : Response, r.toWord.toNat = (if r.err = true then 2 ^ 64 else 0) + r.result.toNat ∧ Response.ofWord r.toWord = r) ∧
  (∀ (c : Command) (r : Row) (x : Response), lookup c.op = some r → respond c = some x →
    x.result.toNat < 2 ^ r.width ∧
    (r.form.isField = false → x.err = false ∧ x.result.toNat ≤ r.width ∧ x.result.toNat / 2 ^ 7 = 0))

/-- R32: the subfields of the defined op codes. -/
def Obligations.OpCodeSubfields : Prop :=
  ∀ r ∈ opTable, r.op.toNat / 4 % 4 = 0 ∧ r.width = 8 * 2 ^ (r.op.toNat % 4) ∧
    1 ≤ r.op.toNat / 16 ∧ r.op.toNat / 16 ≤ 8 ∧
    some r.mnemonic = (["extract", "getField", "deposit", "setField", "countOnes", "countZeros", "countTrailingZeros",
      "countTrailingOnes"][r.op.toNat / 16 - 1]?).map (fun f => f ++ Nat.repr r.width)

/-- R33, R38: the decoder gives an operation on exactly the twenty codes, the one named beside the code, with the operand width
beside it, and Reserved on every other code; no two rows of the table share a code. -/
def Obligations.DecoderFollowsTable : Prop :=
  (∀ (c : Command) (m : String) (W : Nat), (c.op, m, W) ∈ definedOps →
    ∃ i r, decode c = .instr i ∧ i.mnemonic = m ∧ lookup c.op = some r ∧ r.width = W ∧ i = r.assemble c) ∧
  (∀ c : Command, c.op ∉ definedCodes → decode c = .reserved c.op) ∧
  opTable.length = 20 ∧ opTable.Pairwise (fun r t => r.op ≠ t.op)

/-- R36, R110: a command with a reserved op code is refused by name and is given no response; there are 236 such codes, among
them every code with `op[3:2]` not 00 and every code whose FN is 0 or at least 9. -/
def Obligations.ReservedOpCodesRefused : Prop :=
  (∀ s : State, s.inp.op ∉ definedCodes → step s = .refused (.reservedOpCode s.inp.op) ∧ respond s.inp = none) ∧
  ((List.range 256).filter (fun n => !definedCodes.contains (BitVec.ofNat 8 n))).length = 236 ∧
  (∀ op : OpCode, op.toNat / 4 % 4 ≠ 0 ∨ op.toNat / 16 = 0 ∨ op.toNat / 16 ≥ 9 → op ∉ definedCodes)

/-- Words written out from R30 and R33 decode to the instruction they stand for (95_test_vectors.md). -/
def Obligations.WrittenWordsDecode : Prop :=
  decodeWord 0x12_04_04_0000000000000000_00000000F0F0F0F0 = .instr (.extract32 0xF0F0F0F0 4 4) ∧
  decodeWord 0x42_13_04_0000000000001234_00000000F0F0F0F0 = .instr (.setField32 0xF0F0F0F0 19 4 0x1234) ∧
  decodeWord 0x50_FF_FF_FFFFFFFFFFFFFFFF_FFFFFFFFFFFFFFA5 = .instr (.countOnes8 0xA5) ∧
  decodeWord 0x73_00_00_0000000000000000_0123456789ABCDE0 = .instr (.countTrailingZeros64 0x0123456789ABCDE0) ∧
  decodeWord 0x16_04_04_0000000000000000_00000000F0F0F0F0 = .reserved 0x16

/-- R39, R41: a well-formed instruction is what its mnemonic and operands, in the source's order, assemble to; and an operand
that does not fit is refused. -/
def Obligations.AssembleOfTextIsIdentity : Prop :=
  (∀ i : Instr, i.wellFormed = true → assembleText i.mnemonic i.operands = some i) ∧
  (∀ (m : String) (ns : List Nat) (i : Instr), assembleText m ns = some i →
    i.mnemonic = m ∧ i.operands = ns ∧ i.wellFormed = true)

/-! ### The machine as a whole -/

/-- A step runs the decoded instruction: when the command on the inputs decodes to `i`, the step is `exec i`, and the
host's presenting of the canonical word of a well-formed instruction makes the next step run exactly it (R6, R27). -/
def Obligations.StepRunsDecodedInstruction : Prop :=
  (∀ (s : State) (i : Instr), decode s.inp = .instr i → step s = exec i s) ∧
  (∀ (s : State) (i : Instr), i.wellFormed = true →
    step (s.withFetchWord 152 (encodeWord i).toNat) = exec i (s.present (encode i)))

/-- R6, R103, R109: every instruction completes, whatever its operands and whatever stands in the state; it leaves the input ports
as they are, and its response depends on the instruction alone. -/
def Obligations.EveryInstructionCompletes : Prop :=
  ∀ i : Instr, ∃ x : Response, ∀ s : State, exec i s = .next { s with response := some x }

/-- R6, R10, R17, R120: the response is a function of the command alone: from any state (so also from reset, and after any
earlier commands, whatever response is recorded) a step gives the response of the command on the inputs, and changes nothing else;
presenting a command forgets the response before it. -/
def Obligations.ResponseDependsOnCommandAlone : Prop :=
  ∀ s : State,
    (∀ x, respond s.inp = some x → step s = .next { s with response := some x }) ∧
    (respond s.inp = none → step s = .refused (.reservedOpCode s.inp.op)) ∧
    ((respond s.inp).isSome = true ↔ s.inp.op ∈ definedCodes) ∧
    (∀ c, (s.present c).inp = c ∧ (s.present c).response = none)

/-- R12, R14: the output ports are combinational. Whenever the command on the inputs has a defined op code, `err` is 1 exactly
when the operation is a field operation whose range check fails, and 0 otherwise; both outputs are functions of the inputs alone,
change with them at once, and are what a step of the command gives the host; no step reads a response given before. -/
def Obligations.OutputsFollowTheCommand : Prop :=
  ∀ s : State,
    (s.inp.op ∈ definedCodes → ∃ e v, s.err = some e ∧ s.result = some v ∧ (e = true ↔ InvalidRangeCause s.inp)) ∧
    (∀ c, c.op ∈ definedCodes → ∃ e, (s.present c).err = some e ∧ (e = true ↔ InvalidRangeCause c)) ∧
    (∀ s' : State, s'.inp = s.inp → s'.err = s.err ∧ s'.result = s.result) ∧
    (∀ t, step s = .next t → t.response.map Response.err = s.err ∧ t.response.map Response.result = s.result ∧
      t.err = s.err ∧ t.result = s.result) ∧
    (∀ old t, step s = .next t → step { s with response := old } = .next t)

/-- R35: two commands that differ only in bits that their operation does not read receive the same response. -/
def Obligations.UnreadBitsHaveNoEffect : Prop :=
  ∀ (c d : Command) (r : Row), c.op = d.op → lookup c.op = some r →
    c.a.toNat % 2 ^ r.width = d.a.toNat % 2 ^ r.width →
    (r.form.readsField = true → c.b.toNat % 2 ^ r.width = d.b.toNat % 2 ^ r.width) →
    (r.form.isField = true → c.p = d.p ∧ c.q = d.q) →
    respond c = respond d

/-- R25: in a stream of defined commands, issued to a unit in any state, the k-th response is the response to the k-th
command; one response per command, in order. -/
def Obligations.StreamResponsesAreIndependent : Prop :=
  ∀ (cs : List Command) (s : State), (∀ c ∈ cs, c.op ∈ definedCodes) →
    ∃ rs t, serve cs s = some (rs, t) ∧ rs.length = cs.length ∧
      ∀ k (h : k < cs.length), rs[k]? = respond cs[k]

/-- R108, R25: requesters that share a unit have no influence on one another: whatever is interleaved with its commands, a
requester receives the responses it would receive with a unit of its own, in any state. -/
def Obligations.RequestersDoNotInterfere : Prop :=
  ∀ (cs : List (Nat × Command)) (s s' : State) (n : Nat), (∀ e ∈ cs, e.2.op ∈ definedCodes) →
    ∃ rs t rs' t', serveTagged cs s = some (rs, t) ∧
      serve ((cs.filter (fun e => e.1 == n)).map Prod.snd) s' = some (rs', t') ∧
      (rs.filter (fun e => e.1 == n)).map Prod.snd = rs'

/-- R23, R17: to evaluate a command again repeats the response and changes nothing; what the step gave is what the output ports
show. -/
def Obligations.StepIsIdempotent : Prop :=
  ∀ s t : State, step s = .next t → step t = .next t ∧ t.Settled

/-- R12, R14, R31, R101, R102: the invariant of the responses that every step establishes and keeps: legal for the command on the
inputs, and never other than what the output ports show. -/
def Obligations.StepKeepsResponseLegal : Prop :=
  ∀ s t : State, s.ResponseLegal ∧ s.Coherent → step s = .next t → (t.ResponseLegal ∧ t.Coherent) ∧ t.inp = s.inp

/-- The invariants hold at reset, where no response has been given, and nothing runs there (the zeros on the input ports are the
model's choice: log entry 2, and so is the absence of a response: log entry 3). -/
def Obligations.ResetIsLegalAndRunsNothing : Prop :=
  State.reset.ResponseLegal ∧ State.reset.Coherent ∧ State.reset.Settled ∧ State.reset.err = none ∧
    step State.reset = .refused (.reservedOpCode 0)

/-- R34 clause 5, R124 clause b: presenting 255 for a larger position gives the response of the software call with its own
position, and what is presented fits the ports. -/
def Obligations.SaturationKeepsTheResponse : Prop :=
  ∀ (i : Instr) (s : State), i.saturate.wellFormed = true ∧ exec i.saturate s = exec i s ∧
    step (s.present (encode i.saturate)) = exec i (s.present (encode i.saturate))

/-! ### Errors -/

/-- R101: which commands receive `InvalidRange`, by op code and positions alone. -/
def Obligations.InvalidRangeCauses : Prop :=
  ∀ (c : Command) (x : Response), respond c = some x → (x.err = true ↔ InvalidRangeCause c)

/-- R102: a step that answers an error changes the recorded response alone, to `err = 1` and the zero-extended value operand,
whatever `b` is. -/
def Obligations.ErrorEchoesValueOperand : Prop :=
  ∀ (s t : State) (r : Row) (x : Response), lookup s.inp.op = some r → step s = .next t → t.response = some x → x.err = true →
    t = { s with response := some (echo (s.inp.a.toNat % 2 ^ r.width)) } ∧
    ∀ b, respond { s.inp with b := b } = some (echo (s.inp.a.toNat % 2 ^ r.width))

/-- R106, R122 clause d: the command after a failing one is handled as if the failing one had never been issued, also when the
failing command's response still stands in the state. -/
def Obligations.FailingCommandLeavesNothing : Prop :=
  ∀ (s t : State) (x : Response) (following : Command), step s = .next t → t.response = some x → x.err = true →
    step { t with inp := following } = step { s with inp := following } ∧
    step (t.present following) = step { s with inp := following }

/-! ### Field extraction -/

/-- R50: the range check at both widths, its equivalent form, and that the (start, length) operations fail exactly when it is
false. -/
def Obligations.RangeCheck : Prop :=
  (∀ W start length, W = 32 ∨ W = 64 →
    (rangeOK W start length = true ↔ start ≤ W - 1 ∧ length ≤ W - start) ∧
    (rangeOK W start length = true ↔ start < W ∧ start + length ≤ W)) ∧
  (∀ (a b : BitVec 32) start length s,
    (Fails a.toNat (.extract32 a start length) s ↔ rangeOK 32 start length = false) ∧
    (Fails a.toNat (.deposit32 a start length b) s ↔ rangeOK 32 start length = false)) ∧
  (∀ (a b : BitVec 64) start length s,
    (Fails a.toNat (.extract64 a start length) s ↔ rangeOK 64 start length = false) ∧
    (Fails a.toNat (.deposit64 a start length b) s ↔ rangeOK 64 start length = false))

/-- R51: the mask of width n: its bits, its value, and the shift that computes it when n is not 0. -/
def Obligations.MaskHasLowBits : Prop :=
  ∀ W n, (W = 32 ∨ W = 64) → n ≤ W →
    (maskOfWidth W n).toNat = 2 ^ n - 1 ∧
    (∀ i, (maskOfWidth W n).getLsbD i = decide (i < n)) ∧
    (1 ≤ n → maskOfWidth W n = BitVec.allOnes W >>> (W - n))

/-- R52: the check of a (high, low) descriptor; its translation always passes the range check and is never empty; the
(high, low) operations fail exactly when the check is false, and otherwise are the (start, length) operations on the translation. -/
def Obligations.BoundsTranslation : Prop :=
  (∀ W high low, W = 32 ∨ W = 64 →
    (boundsOK W high low = true ↔ high ≤ W - 1 ∧ low ≤ W - 1 ∧ high ≥ low) ∧
    (boundsOK W high low = true →
      rangeOK W low (high - low + 1) = true ∧ 1 ≤ high - low + 1 ∧ high - low + 1 ≤ W)) ∧
  (∀ (a b : BitVec 32) high low s,
    (Fails a.toNat (.getField32 a high low) s ↔ boundsOK 32 high low = false) ∧
    (Fails a.toNat (.setField32 a high low b) s ↔ boundsOK 32 high low = false) ∧
    (boundsOK 32 high low = true →
      exec (.getField32 a high low) s = exec (.extract32 a low (high - low + 1)) s ∧
      exec (.setField32 a high low b) s = exec (.deposit32 a low (high - low + 1) b) s)) ∧
  (∀ (a b : BitVec 64) high low s,
    (Fails a.toNat (.getField64 a high low) s ↔ boundsOK 64 high low = false) ∧
    (Fails a.toNat (.setField64 a high low b) s ↔ boundsOK 64 high low = false) ∧
    (boundsOK 64 high low = true →
      exec (.getField64 a high low) s = exec (.extract64 a low (high - low + 1)) s ∧
      exec (.setField64 a high low b) s = exec (.deposit64 a low (high - low + 1) b) s))

/-- R53: `extract32`, as an instruction and as the command with op code 0x12. -/
def Obligations.Extract32 : Prop :=
  (∀ a start length s, exec (.extract32 a start length) s =
    .next { s with response := some (extractResponse 32 a.toNat start length) }) ∧
  (∀ s : State, s.inp.op = 0x12 → step s =
    .next { s with response := some (extractResponse 32 (s.inp.a.toNat % 2 ^ 32) s.inp.p.toNat s.inp.q.toNat) })

/-- R54: `extract64`, as an instruction and as the command with op code 0x13. -/
def Obligations.Extract64 : Prop :=
  (∀ a start length s, exec (.extract64 a start length) s =
    .next { s with response := some (extractResponse 64 a.toNat start length) }) ∧
  (∀ s : State, s.inp.op = 0x13 → step s =
    .next { s with response := some (extractResponse 64 s.inp.a.toNat s.inp.p.toNat s.inp.q.toNat) })

/-- R55: `getField32`, as an instruction and as the command with op code 0x22. -/
def Obligations.GetField32 : Prop :=
  (∀ a high low s, exec (.getField32 a high low) s =
    .next { s with response := some (getFieldResponse 32 a.toNat high low) }) ∧
  (∀ s : State, s.inp.op = 0x22 → step s =
    .next { s with response := some (getFieldResponse 32 (s.inp.a.toNat % 2 ^ 32) s.inp.p.toNat s.inp.q.toNat) })

/-- R56: `getField64`, as an instruction and as the command with op code 0x23. -/
def Obligations.GetField64 : Prop :=
  (∀ a high low s, exec (.getField64 a high low) s =
    .next { s with response := some (getFieldResponse 64 a.toNat high low) }) ∧
  (∀ s : State, s.inp.op = 0x23 → step s =
    .next { s with response := some (getFieldResponse 64 s.inp.a.toNat s.inp.p.toNat s.inp.q.toNat) })

/-- R57: the laws of extraction, at both widths, as responses of the unit. -/
def Obligations.ExtractionLaws : Prop :=
  (∀ (v : BitVec 32) (s : State), exec (.getField32 v 31 0) s = .next { s with response := some ⟨false, v.setWidth 64⟩ }) ∧
  (∀ (v : BitVec 64) (s : State), exec (.getField64 v 63 0) s = .next { s with response := some ⟨false, v⟩ }) ∧
  (∀ (v : BitVec 32) start length (s : State), start + length ≤ 32 → 1 ≤ length →
    exec (.extract32 v start length) s = exec (.getField32 v (start + length - 1) start) s) ∧
  (∀ (v : BitVec 64) start length (s : State), start + length ≤ 64 → 1 ≤ length →
    exec (.extract64 v start length) s = exec (.getField64 v (start + length - 1) start) s) ∧
  (∀ (v : BitVec 32) start length (s t : State) (x : Response), exec (.extract32 v start length) s = .next t →
    t.response = some x → x.err = false → x.result.toNat < 2 ^ length) ∧
  (∀ (v : BitVec 64) start length (s t : State) (x : Response), exec (.extract64 v start length) s = .next t →
    t.response = some x → x.err = false → x.result.toNat < 2 ^ length) ∧
  (∀ (v : BitVec 32) (s : State), exec (.extract32 v 32 0) s = .next { s with response := some ⟨true, v.setWidth 64⟩ } ∧
    exec (.extract32 v 0 33) s = .next { s with response := some ⟨true, v.setWidth 64⟩ })

/-! ### Field deposition -/

/-- R60: the merge, bit by bit, for every descriptor that the range check accepts. -/
def Obligations.MergeBitByBit : Prop :=
  ∀ W (value field : BitVec W) start length, (W = 32 ∨ W = 64) → rangeOK W start length = true →
    (∀ i, i < W → (depositField value start length field).getLsbD i =
      if start ≤ i ∧ i < start + length then field.getLsbD (i - start) else value.getLsbD i) ∧
    depositField value start length field =
      (value &&& ~~~(maskOfWidth W length <<< start)) ||| ((field <<< start) &&& (maskOfWidth W length <<< start)) ∧
    (length = 0 → depositField value start length field = value)

/-- R61: `deposit32`, as an instruction and as the command with op code 0x32. -/
def Obligations.Deposit32 : Prop :=
  (∀ a start length b s, exec (.deposit32 a start length b) s =
    .next { s with response := some (depositResponse 32 a.toNat start length b.toNat) }) ∧
  (∀ s : State, s.inp.op = 0x32 → step s =
    .next { s with response := some (depositResponse 32 (s.inp.a.toNat % 2 ^ 32) s.inp.p.toNat s.inp.q.toNat (s.inp.b.toNat % 2 ^ 32)) })

/-- R62: `deposit64`, as an instruction and as the command with op code 0x33. -/
def Obligations.Deposit64 : Prop :=
  (∀ a start length b s, exec (.deposit64 a start length b) s =
    .next { s with response := some (depositResponse 64 a.toNat start length b.toNat) }) ∧
  (∀ s : State, s.inp.op = 0x33 → step s =
    .next { s with response := some (depositResponse 64 s.inp.a.toNat s.inp.p.toNat s.inp.q.toNat s.inp.b.toNat) })

/-- R63: `setField32`, as an instruction and as the command with op code 0x42. -/
def Obligations.SetField32 : Prop :=
  (∀ a high low b s, exec (.setField32 a high low b) s =
    .next { s with response := some (setFieldResponse 32 a.toNat high low b.toNat) }) ∧
  (∀ s : State, s.inp.op = 0x42 → step s =
    .next { s with response := some (setFieldResponse 32 (s.inp.a.toNat % 2 ^ 32) s.inp.p.toNat s.inp.q.toNat (s.inp.b.toNat % 2 ^ 32)) })

/-- R64: `setField64`, as an instruction and as the command with op code 0x43. -/
def Obligations.SetField64 : Prop :=
  (∀ a high low b s, exec (.setField64 a high low b) s =
    .next { s with response := some (setFieldResponse 64 a.toNat high low b.toNat) }) ∧
  (∀ s : State, s.inp.op = 0x43 → step s =
    .next { s with response := some (setFieldResponse 64 s.inp.a.toNat s.inp.p.toNat s.inp.q.toNat s.inp.b.toNat) })

/-- R65: the round trips through deposit and extract, at both widths, as responses of the unit. -/
def Obligations.DepositExtractRoundTrip : Prop :=
  (∀ (v f : BitVec 32) start length (s : State), rangeOK 32 start length = true →
    ∃ d x : BitVec 32, exec (.deposit32 v start length f) s = .next { s with response := some ⟨false, d.setWidth 64⟩ } ∧
      exec (.extract32 d start length) s = .next { s with response := some ⟨false, (f &&& maskOfWidth 32 length).setWidth 64⟩ } ∧
      exec (.extract32 v start length) s = .next { s with response := some ⟨false, x.setWidth 64⟩ } ∧
      exec (.deposit32 v start length x) s = .next { s with response := some ⟨false, v.setWidth 64⟩ } ∧
      ∀ i, ¬(start ≤ i ∧ i < start + length) → d.getLsbD i = v.getLsbD i) ∧
  (∀ (v f : BitVec 64) start length (s : State), rangeOK 64 start length = true →
    ∃ d x : BitVec 64, exec (.deposit64 v start length f) s = .next { s with response := some ⟨false, d⟩ } ∧
      exec (.extract64 d start length) s = .next { s with response := some ⟨false, f &&& maskOfWidth 64 length⟩ } ∧
      exec (.extract64 v start length) s = .next { s with response := some ⟨false, x⟩ } ∧
      exec (.deposit64 v start length x) s = .next { s with response := some ⟨false, v⟩ } ∧
      ∀ i, ¬(start ≤ i ∧ i < start + length) → d.getLsbD i = v.getLsbD i)

/-! ### Population count and zero count -/

/-- R70: the population count is the sum of the operand's bits, a number from 0 to W. -/
def Obligations.PopCountIsBitSum : Prop :=
  ∀ W (v : BitVec W), W ∈ [8, 16, 32, 64] →
    popCount v = bitSum W v.toNat ∧ popCount v = ((List.range W).filter (fun i => v.getLsbD i)).length ∧ popCount v ≤ W

/-- R72 to R75: `countOnes8/16/32/64` as instructions and as commands: the sum of the operand's bits, `err = 0`. -/
def Obligations.CountOnes : Prop :=
  (∀ a s, exec (.countOnes8 a) s = .next { s with response := some ⟨false, BitVec.ofNat 64 (bitSum 8 a.toNat)⟩ }) ∧
  (∀ a s, exec (.countOnes16 a) s = .next { s with response := some ⟨false, BitVec.ofNat 64 (bitSum 16 a.toNat)⟩ }) ∧
  (∀ a s, exec (.countOnes32 a) s = .next { s with response := some ⟨false, BitVec.ofNat 64 (bitSum 32 a.toNat)⟩ }) ∧
  (∀ a s, exec (.countOnes64 a) s = .next { s with response := some ⟨false, BitVec.ofNat 64 (bitSum 64 a.toNat)⟩ }) ∧
  (∀ s : State,
    (s.inp.op = 0x50 → step s = .next { s with response := some ⟨false, BitVec.ofNat 64 (bitSum 8 (s.inp.a.toNat % 2 ^ 8))⟩ }) ∧
    (s.inp.op = 0x51 → step s = .next { s with response := some ⟨false, BitVec.ofNat 64 (bitSum 16 (s.inp.a.toNat % 2 ^ 16))⟩ }) ∧
    (s.inp.op = 0x52 → step s = .next { s with response := some ⟨false, BitVec.ofNat 64 (bitSum 32 (s.inp.a.toNat % 2 ^ 32))⟩ }) ∧
    (s.inp.op = 0x53 → step s = .next { s with response := some ⟨false, BitVec.ofNat 64 (bitSum 64 s.inp.a.toNat)⟩ }))

/-- R76 to R79: `countZeros8/16/32/64` as instructions and as commands: W less the sum of the operand's bits, `err = 0`. -/
def Obligations.CountZeros : Prop :=
  (∀ a s, exec (.countZeros8 a) s = .next { s with response := some ⟨false, BitVec.ofNat 64 (8 - bitSum 8 a.toNat)⟩ }) ∧
  (∀ a s, exec (.countZeros16 a) s = .next { s with response := some ⟨false, BitVec.ofNat 64 (16 - bitSum 16 a.toNat)⟩ }) ∧
  (∀ a s, exec (.countZeros32 a) s = .next { s with response := some ⟨false, BitVec.ofNat 64 (32 - bitSum 32 a.toNat)⟩ }) ∧
  (∀ a s, exec (.countZeros64 a) s = .next { s with response := some ⟨false, BitVec.ofNat 64 (64 - bitSum 64 a.toNat)⟩ }) ∧
  (∀ s : State,
    (s.inp.op = 0x60 → step s = .next { s with response := some ⟨false, BitVec.ofNat 64 (8 - bitSum 8 (s.inp.a.toNat % 2 ^ 8))⟩ }) ∧
    (s.inp.op = 0x61 → step s = .next { s with response := some ⟨false, BitVec.ofNat 64 (16 - bitSum 16 (s.inp.a.toNat % 2 ^ 16))⟩ }) ∧
    (s.inp.op = 0x62 → step s = .next { s with response := some ⟨false, BitVec.ofNat 64 (32 - bitSum 32 (s.inp.a.toNat % 2 ^ 32))⟩ }) ∧
    (s.inp.op = 0x63 → step s = .next { s with response := some ⟨false, BitVec.ofNat 64 (64 - bitSum 64 s.inp.a.toNat)⟩ }))

/-- R80: the laws of the counts, as responses of the unit, at every width. -/
def Obligations.CountLaws : Prop :=
  CountLawsAt 8 .countOnes8 .countZeros8 ∧ CountLawsAt 16 .countOnes16 .countZeros16 ∧
  CountLawsAt 32 .countOnes32 .countZeros32 ∧ CountLawsAt 64 .countOnes64 .countZeros64

/-- R71: after stage k every group of `2^k` bits of the tree's word holds the count of the 1 bits that the same group of the
operand had. The tree's mask constants are PRESUMED (the spec's G1, log entry 12). -/
def Obligations.TreeStageHoldsGroupCounts : Prop :=
  ∀ W (v : BitVec W), W ∈ [8, 16, 32, 64] → ∀ k, k ≤ Nat.log2 W → ∀ j, j < W / 2 ^ k →
    (swarWord v k).toNat / 2 ^ (2 ^ k * j) % 2 ^ 2 ^ k =
      ((List.range (2 ^ k)).map (fun i => v.toNat / 2 ^ (2 ^ k * j + i) % 2)).sum

/-- R71, R70: the population-count tree of three, four, five and six stages computes the population count of every operand. Its
mask constants are PRESUMED (the spec's G1) and its sixth stage is the spec's decision D32 (log entry 12). -/
def Obligations.TreeComputesPopCount : Prop :=
  ∀ W (v : BitVec W), W ∈ [8, 16, 32, 64] → swarPopCount v = popCount v

/-! ### Trailing counts -/

/-- R85: the trailing-zero count is the position of the lowest 1 bit, and W for 0 alone; it is 0 exactly for odd values. -/
def Obligations.CtzIsLowestOnePosition : Prop :=
  ∀ W (v : BitVec W), W = 32 ∨ W = 64 →
    (v ≠ 0#W → ctz v < W ∧ v.getLsbD (ctz v) = true ∧ ∀ i, i < ctz v → v.getLsbD i = false) ∧
    (v = 0#W → ctz v = W) ∧ (ctz v = W ↔ v = 0#W) ∧ (ctz v = 0 ↔ v.toNat % 2 = 1) ∧ IsRun false W v.toNat (ctz v)

/-- R85, R87 to R90: the answer of each trailing count is the length of the run, and no other number up to W is: the unit answers
n to the operand exactly when n is the length of its run of 0 bits, or of 1 bits, from bit 0. -/
def Obligations.TrailingCountIsExactlyTheRun : Prop :=
  (∀ a s n, n ≤ 32 → (Answers (.countTrailingZeros32 a) s n ↔ IsRun false 32 a.toNat n)) ∧
  (∀ a s n, n ≤ 64 → (Answers (.countTrailingZeros64 a) s n ↔ IsRun false 64 a.toNat n)) ∧
  (∀ a s n, n ≤ 32 → (Answers (.countTrailingOnes32 a) s n ↔ IsRun true 32 a.toNat n)) ∧
  (∀ a s n, n ≤ 64 → (Answers (.countTrailingOnes64 a) s n ↔ IsRun true 64 a.toNat n))

/-- R87: `countTrailingZeros32`, as an instruction and as the command with op code 0x72. -/
def Obligations.CountTrailingZeros32 : Prop :=
  (∀ a s, RunOutcome false 32 a.toNat s (exec (.countTrailingZeros32 a) s)) ∧
  (∀ s : State, s.inp.op = 0x72 → RunOutcome false 32 (s.inp.a.toNat % 2 ^ 32) s (step s))

/-- R88: `countTrailingZeros64`, as an instruction and as the command with op code 0x73, and its split into two 32-bit counts. -/
def Obligations.CountTrailingZeros64 : Prop :=
  (∀ a s, RunOutcome false 64 a.toNat s (exec (.countTrailingZeros64 a) s)) ∧
  (∀ s : State, s.inp.op = 0x73 → RunOutcome false 64 s.inp.a.toNat s (step s)) ∧
  (∀ a s, ∃ n, Answers (.countTrailingZeros64 a) s (if a.toNat % 2 ^ 32 = 0 then 32 + n else n) ∧
    Answers (.countTrailingZeros32 (if a.toNat % 2 ^ 32 = 0 then a.extractLsb' 32 32 else a.extractLsb' 0 32)) s n)

/-- R89: `countTrailingOnes32`, as an instruction and as the command with op code 0x82; it is `countTrailingZeros32` of the
32-bit complement. -/
def Obligations.CountTrailingOnes32 : Prop :=
  (∀ a s, RunOutcome true 32 a.toNat s (exec (.countTrailingOnes32 a) s)) ∧
  (∀ s : State, s.inp.op = 0x82 → RunOutcome true 32 (s.inp.a.toNat % 2 ^ 32) s (step s)) ∧
  (∀ a s, exec (.countTrailingOnes32 a) s = exec (.countTrailingZeros32 (~~~a)) s)

/-- R90: `countTrailingOnes64`, as an instruction and as the command with op code 0x83; it is `countTrailingZeros64` of the
64-bit complement. -/
def Obligations.CountTrailingOnes64 : Prop :=
  (∀ a s, RunOutcome true 64 a.toNat s (exec (.countTrailingOnes64 a) s)) ∧
  (∀ s : State, s.inp.op = 0x83 → RunOutcome true 64 s.inp.a.toNat s (step s)) ∧
  (∀ a s, exec (.countTrailingOnes64 a) s = exec (.countTrailingZeros64 (~~~a)) s)

/-- R91: the laws of the trailing counts, as responses of the unit, at both widths. -/
def Obligations.TrailingLaws : Prop :=
  TrailingLawsAt 32 .countTrailingZeros32 .countTrailingOnes32 ∧
  TrailingLawsAt 64 .countTrailingZeros64 .countTrailingOnes64

/-- R86, R85: the halving search computes the trailing-zero count of every 32-bit operand. The listing is the spec's own
reconstruction of the source's outline (R86, 91_not_in_source.md N6; log entry 11). -/
def Obligations.HalvingSearchComputesCtz : Prop := ∀ v : BitVec 32, ctz32ref v = ctz v

/-- R88, R86, R85: the 64-bit split, each half through the halving search, computes the trailing-zero count of every 64-bit
operand. The search is the spec's own reconstruction (R86, N6; log entry 11). -/
def Obligations.SplitComputesCtz64 : Prop := ∀ v : BitVec 64, ctz64ref v = ctz v
end

