-- ==== Sys2Proof/Laws/Decode.lean ====
section
/-! SUPPORT. What the decoder does with each op code, and what a step does with what it decoded. -/

namespace Sys2Proof

theorem decode_extract32 {c : Command} (h : c.op = 0x12) : decode c = .instr (.extract32 (c.a.setWidth 32) c.p.toNat c.q.toNat) := by
  unfold decode; rw [h]; rfl

theorem decode_extract64 {c : Command} (h : c.op = 0x13) : decode c = .instr (.extract64 c.a c.p.toNat c.q.toNat) := by
  unfold decode; rw [h]; rfl

theorem decode_getField32 {c : Command} (h : c.op = 0x22) : decode c = .instr (.getField32 (c.a.setWidth 32) c.p.toNat c.q.toNat) := by
  unfold decode; rw [h]; rfl

theorem decode_getField64 {c : Command} (h : c.op = 0x23) : decode c = .instr (.getField64 c.a c.p.toNat c.q.toNat) := by
  unfold decode; rw [h]; rfl

theorem decode_deposit32 {c : Command} (h : c.op = 0x32) : decode c = .instr (.deposit32 (c.a.setWidth 32) c.p.toNat c.q.toNat (c.b.setWidth 32)) := by
  unfold decode; rw [h]; rfl

theorem decode_deposit64 {c : Command} (h : c.op = 0x33) : decode c = .instr (.deposit64 c.a c.p.toNat c.q.toNat c.b) := by
  unfold decode; rw [h]; rfl

theorem decode_setField32 {c : Command} (h : c.op = 0x42) : decode c = .instr (.setField32 (c.a.setWidth 32) c.p.toNat c.q.toNat (c.b.setWidth 32)) := by
  unfold decode; rw [h]; rfl

theorem decode_setField64 {c : Command} (h : c.op = 0x43) : decode c = .instr (.setField64 c.a c.p.toNat c.q.toNat c.b) := by
  unfold decode; rw [h]; rfl

theorem decode_countOnes8 {c : Command} (h : c.op = 0x50) : decode c = .instr (.countOnes8 (c.a.setWidth 8)) := by
  unfold decode; rw [h]; rfl

theorem decode_countOnes16 {c : Command} (h : c.op = 0x51) : decode c = .instr (.countOnes16 (c.a.setWidth 16)) := by
  unfold decode; rw [h]; rfl

theorem decode_countOnes32 {c : Command} (h : c.op = 0x52) : decode c = .instr (.countOnes32 (c.a.setWidth 32)) := by
  unfold decode; rw [h]; rfl

theorem decode_countOnes64 {c : Command} (h : c.op = 0x53) : decode c = .instr (.countOnes64 c.a) := by
  unfold decode; rw [h]; rfl

theorem decode_countZeros8 {c : Command} (h : c.op = 0x60) : decode c = .instr (.countZeros8 (c.a.setWidth 8)) := by
  unfold decode; rw [h]; rfl

theorem decode_countZeros16 {c : Command} (h : c.op = 0x61) : decode c = .instr (.countZeros16 (c.a.setWidth 16)) := by
  unfold decode; rw [h]; rfl

theorem decode_countZeros32 {c : Command} (h : c.op = 0x62) : decode c = .instr (.countZeros32 (c.a.setWidth 32)) := by
  unfold decode; rw [h]; rfl

theorem decode_countZeros64 {c : Command} (h : c.op = 0x63) : decode c = .instr (.countZeros64 c.a) := by
  unfold decode; rw [h]; rfl

theorem decode_countTrailingZeros32 {c : Command} (h : c.op = 0x72) : decode c = .instr (.countTrailingZeros32 (c.a.setWidth 32)) := by
  unfold decode; rw [h]; rfl

theorem decode_countTrailingZeros64 {c : Command} (h : c.op = 0x73) : decode c = .instr (.countTrailingZeros64 c.a) := by
  unfold decode; rw [h]; rfl

theorem decode_countTrailingOnes32 {c : Command} (h : c.op = 0x82) : decode c = .instr (.countTrailingOnes32 (c.a.setWidth 32)) := by
  unfold decode; rw [h]; rfl

theorem decode_countTrailingOnes64 {c : Command} (h : c.op = 0x83) : decode c = .instr (.countTrailingOnes64 c.a) := by
  unfold decode; rw [h]; rfl

@[simp] theorem fitsPort_iff {n : Nat} : fitsPort n = true ↔ n < 256 := by
  simp [fitsPort, Config.POSW]

theorem decode_eq_reserved_iff {c : Command} {op : OpCode} : decode c = .reserved op ↔ lookup c.op = none ∧ op = c.op := by
  unfold decode
  cases h : lookup c.op with
  | none => simp [eq_comm]
  | some r => simp

theorem lookup_eq_none_iff {op : OpCode} : lookup op = none ↔ op ∉ opTable.map Row.op := by
  simp [lookup, List.find?_eq_none]

end Sys2Proof

namespace Sys2Proof.Machine

theorem step_of_decode {s : State} {i : Instr} (h : decode s.inp = .instr i) : step s = exec i s := by
  simp [step, h]

theorem step_of_reserved {s : State} {op : OpCode} (h : decode s.inp = .reserved op) :
    step s = .refused (.reservedOpCode op) := by
  simp [step, h]

end Sys2Proof.Machine
end

