-- ==== Sys2Proof/Laws/Operands.lean ====
section
/-! SUPPORT. One specification lemma per shared function of the operands: the two checks as propositions, the bits of the mask,
of an extraction and of a merge, and the bounds of the counts. -/

namespace Sys2Proof.Machine

theorem rangeOK_iff {w start length : Nat} :
    rangeOK w start length = true ↔ start ≤ w - 1 ∧ length ≤ w - start := by
  simp [rangeOK]

theorem boundsOK_iff {w high low : Nat} :
    boundsOK w high low = true ↔ high ≤ w - 1 ∧ low ≤ w - 1 ∧ low ≤ high := by
  simp [boundsOK, and_assoc]

theorem errStartLength_eq_false_iff {w start length : Nat} :
    errStartLength w start length = false ↔ start ≤ w - 1 ∧ length ≤ w - start := by
  rw [← rangeOK_iff]; simp [errStartLength]

theorem errHighLow_eq_false_iff {w high low : Nat} :
    errHighLow w high low = false ↔ high ≤ w - 1 ∧ low ≤ w - 1 ∧ low ≤ high := by
  rw [← boundsOK_iff]; simp [errHighLow]

theorem getLsbD_maskOfWidth {w n : Nat} (h : n ≤ w) (i : Nat) : (maskOfWidth w n).getLsbD i = decide (i < n) := by
  unfold maskOfWidth
  split
  · simp_all
  · simp only [BitVec.getLsbD_ushiftRight, BitVec.getLsbD_allOnes]
    exact decide_eq_decide.mpr (by omega)

/-- Bit i of an extraction is bit start + i of the value below `length`, and 0 from there on (40_extract.md section 1). -/
theorem getLsbD_extractField {w : Nat} (v : BitVec w) {start length : Nat} (h : length ≤ w) (i : Nat) :
    (extractField v start length).getLsbD i = (decide (i < length) && v.getLsbD (start + i)) := by
  unfold extractField
  split
  · simp_all
  · simp [getLsbD_maskOfWidth h, Bool.and_comm]

/-- Bit i of a merge is the field's inside the field and the value's outside it (R60). -/
theorem getLsbD_depositField {w : Nat} (v f : BitVec w) {start length : Nat} (h : start + length ≤ w) (i : Nat) :
    (depositField v start length f).getLsbD i =
      if start ≤ i ∧ i < start + length then f.getLsbD (i - start) else v.getLsbD i := by
  have hmask := getLsbD_maskOfWidth (w := w) (n := length) (by omega) (i - start)
  by_cases hi : i < w
  · simp only [depositField, BitVec.getLsbD_or, BitVec.getLsbD_and, BitVec.getLsbD_not, BitVec.getLsbD_shiftLeft, hmask, hi]
    by_cases hs : start ≤ i <;> by_cases hl : i < start + length
    · simp [hs, hl, show i - start < length by omega, show ¬ i < start by omega]
    · simp [hs, hl, show ¬ i - start < length by omega]
    · simp [hs, show i < start by omega]
    · simp [hs, show i < start by omega]
  · have hin : ¬ (start ≤ i ∧ i < start + length) := by omega
    rw [BitVec.getLsbD_of_ge _ i (Nat.le_of_not_lt hi), BitVec.getLsbD_of_ge _ i (Nat.le_of_not_lt hi), if_neg hin]

theorem popCount_le {w : Nat} (v : BitVec w) : popCount v ≤ w := by
  have h := List.countP_le_length (p := fun i => v.getLsbD i) (l := List.range w)
  simpa [popCount] using h

theorem ctz_le {w : Nat} (v : BitVec w) : ctz v ≤ w := by
  unfold ctz
  cases h : (List.range w).find? (fun i => v.getLsbD i) with
  | none => simp
  | some i => simpa using (List.mem_range.mp (List.mem_of_find?_eq_some h)).le

end Sys2Proof.Machine
end

