-- ==== Sys2Proof/Laws/State.lean ====
section
/-! SUPPORT. One lemma per field of State and per output port, for each update: presenting a command, and recording a response. -/

namespace Sys2Proof.Machine

@[simp] theorem State.present_inp (s : State) (c : Command) : (s.present c).inp = c := rfl
@[simp] theorem State.present_response (s : State) (c : Command) : (s.present c).response = none := rfl
theorem State.present_eq (s : State) (c : Command) : s.present c = ⟨c, none⟩ := rfl
@[simp] theorem State.withFetchWord_eq_present (s : State) (nbits w : Nat) :
    s.withFetchWord nbits w = s.present (Command.ofWord (BitVec.ofNat 152 w)) := rfl

/-! The output ports are functions of the inputs: presenting a command changes them at once, recording a response does not. -/

@[simp] theorem State.outputs_present (s : State) (c : Command) : (s.present c).outputs = respond c := rfl
@[simp] theorem State.err_present (s : State) (c : Command) : (s.present c).err = (respond c).map Response.err := rfl
@[simp] theorem State.outputs_record (s : State) (x : Option Response) : { s with response := x }.outputs = s.outputs := rfl
@[simp] theorem State.err_record (s : State) (x : Option Response) : { s with response := x }.err = s.err := rfl
@[simp] theorem State.result_record (s : State) (x : Option Response) : { s with response := x }.result = s.result := rfl

theorem State.eq_of_fields {s t : State} (hi : s.inp = t.inp) (ho : s.response = t.response) : s = t := by
  cases s; cases t; cases hi; cases ho; rfl

end Sys2Proof.Machine
end

