-- ==== Sys2Proof/Laws/Ops.lean ====
section
/-! SUPPORT. What each shared operation can do: it always answers a next state, and only the recorded response differs. -/

namespace Sys2Proof.Machine

theorem drive_next_iff {r : Response} {s t : State} : drive r s = .next t ↔ t = { s with response := some r } := by
  constructor
  · intro h; cases h; rfl
  · rintro rfl; rfl

theorem succeed_eq (v : Data) (s : State) : succeed v s = .next { s with response := some ⟨false, v⟩ } := rfl

theorem raiseInvalidRange_eq {w : Nat} (v : BitVec w) (s : State) :
    raiseInvalidRange v s = .next { s with response := some ⟨true, v.setWidth 64⟩ } := rfl

theorem countOutcome_eq (n : Nat) (s : State) :
    countOutcome n s = .next { s with response := some ⟨false, BitVec.ofNat 64 n⟩ } := rfl

/-- The response of a field operation, whole: the error bit, and the echo or the result. -/
theorem fieldOutcome_eq {w : Nat} (err : Bool) (value result : BitVec w) (s : State) :
    fieldOutcome err value result s =
      .next { s with response := some ⟨err, if err then value.setWidth 64 else result.setWidth 64⟩ } := by
  cases err <;> rfl

end Sys2Proof.Machine
end

