-- ==== Sys2Proof/Laws/PerInstr.lean ====
section
/-! SUPPORT. Statements about every instruction as syntax, one lemma per constructor. -/

namespace Sys2Proof.Laws.CanonicalEncoding

/-- The canonical encoding of an instruction has the op code of its mnemonic's row, and writes as zero every field that the
row's form does not read (R41). -/
def Statement (i : Instr) : Prop :=
  ∃ r : Row, rowOfMnemonic i.mnemonic = some r ∧ (encode i).op = r.op ∧
    (r.form.readsField = false → (encode i).b = 0) ∧
    (r.form.isField = false → (encode i).p = 0 ∧ (encode i).q = 0)

theorem extract32 (a : BitVec 32) (p q : Nat) : Statement (.extract32 a p q) :=
  ⟨opTable[0]'(by decide), rfl, rfl, fun _ => rfl, fun h => absurd h (by decide)⟩

theorem extract64 (a : BitVec 64) (p q : Nat) : Statement (.extract64 a p q) :=
  ⟨opTable[1]'(by decide), rfl, rfl, fun _ => rfl, fun h => absurd h (by decide)⟩

theorem getField32 (a : BitVec 32) (p q : Nat) : Statement (.getField32 a p q) :=
  ⟨opTable[2]'(by decide), rfl, rfl, fun _ => rfl, fun h => absurd h (by decide)⟩

theorem getField64 (a : BitVec 64) (p q : Nat) : Statement (.getField64 a p q) :=
  ⟨opTable[3]'(by decide), rfl, rfl, fun _ => rfl, fun h => absurd h (by decide)⟩

theorem deposit32 (a : BitVec 32) (p q : Nat) (b : BitVec 32) : Statement (.deposit32 a p q b) :=
  ⟨opTable[4]'(by decide), rfl, rfl, fun h => absurd h (by decide), fun h => absurd h (by decide)⟩

theorem deposit64 (a : BitVec 64) (p q : Nat) (b : BitVec 64) : Statement (.deposit64 a p q b) :=
  ⟨opTable[5]'(by decide), rfl, rfl, fun h => absurd h (by decide), fun h => absurd h (by decide)⟩

theorem setField32 (a : BitVec 32) (p q : Nat) (b : BitVec 32) : Statement (.setField32 a p q b) :=
  ⟨opTable[6]'(by decide), rfl, rfl, fun h => absurd h (by decide), fun h => absurd h (by decide)⟩

theorem setField64 (a : BitVec 64) (p q : Nat) (b : BitVec 64) : Statement (.setField64 a p q b) :=
  ⟨opTable[7]'(by decide), rfl, rfl, fun h => absurd h (by decide), fun h => absurd h (by decide)⟩

theorem countOnes8 (a : BitVec 8) : Statement (.countOnes8 a) :=
  ⟨opTable[8]'(by decide), rfl, rfl, fun _ => rfl, fun _ => ⟨rfl, rfl⟩⟩

theorem countOnes16 (a : BitVec 16) : Statement (.countOnes16 a) :=
  ⟨opTable[9]'(by decide), rfl, rfl, fun _ => rfl, fun _ => ⟨rfl, rfl⟩⟩

theorem countOnes32 (a : BitVec 32) : Statement (.countOnes32 a) :=
  ⟨opTable[10]'(by decide), rfl, rfl, fun _ => rfl, fun _ => ⟨rfl, rfl⟩⟩

theorem countOnes64 (a : BitVec 64) : Statement (.countOnes64 a) :=
  ⟨opTable[11]'(by decide), rfl, rfl, fun _ => rfl, fun _ => ⟨rfl, rfl⟩⟩

theorem countZeros8 (a : BitVec 8) : Statement (.countZeros8 a) :=
  ⟨opTable[12]'(by decide), rfl, rfl, fun _ => rfl, fun _ => ⟨rfl, rfl⟩⟩

theorem countZeros16 (a : BitVec 16) : Statement (.countZeros16 a) :=
  ⟨opTable[13]'(by decide), rfl, rfl, fun _ => rfl, fun _ => ⟨rfl, rfl⟩⟩

theorem countZeros32 (a : BitVec 32) : Statement (.countZeros32 a) :=
  ⟨opTable[14]'(by decide), rfl, rfl, fun _ => rfl, fun _ => ⟨rfl, rfl⟩⟩

theorem countZeros64 (a : BitVec 64) : Statement (.countZeros64 a) :=
  ⟨opTable[15]'(by decide), rfl, rfl, fun _ => rfl, fun _ => ⟨rfl, rfl⟩⟩

theorem countTrailingZeros32 (a : BitVec 32) : Statement (.countTrailingZeros32 a) :=
  ⟨opTable[16]'(by decide), rfl, rfl, fun _ => rfl, fun _ => ⟨rfl, rfl⟩⟩

theorem countTrailingZeros64 (a : BitVec 64) : Statement (.countTrailingZeros64 a) :=
  ⟨opTable[17]'(by decide), rfl, rfl, fun _ => rfl, fun _ => ⟨rfl, rfl⟩⟩

theorem countTrailingOnes32 (a : BitVec 32) : Statement (.countTrailingOnes32 a) :=
  ⟨opTable[18]'(by decide), rfl, rfl, fun _ => rfl, fun _ => ⟨rfl, rfl⟩⟩

theorem countTrailingOnes64 (a : BitVec 64) : Statement (.countTrailingOnes64 a) :=
  ⟨opTable[19]'(by decide), rfl, rfl, fun _ => rfl, fun _ => ⟨rfl, rfl⟩⟩

end Sys2Proof.Laws.CanonicalEncoding
end

