-- ==== Sys2Proof/Laws/Runs.lean ====
section
/-! SUPPORT. A run of equal bits from bit 0 has one length, so a statement that a trailing count answers the length of a run fixes
its value (43_trailing.md R85). -/

namespace Sys2Proof.Claims

theorem isRun_unique {bit : Bool} {W v n m : Nat} (hn : IsRun bit W v n) (hm : IsRun bit W v m) : n = m := by
  obtain ⟨hnW, hn_in, hn_end⟩ := hn
  obtain ⟨hmW, hm_in, hm_end⟩ := hm
  rcases Nat.lt_trichotomy n m with h | h | h
  · have := (hm_in n h).symm.trans (hn_end (by omega))
    cases bit <;> cases this
  · exact h
  · have := (hn_in m h).symm.trans (hm_end (by omega))
    cases bit <;> cases this

end Sys2Proof.Claims
end

