-- ==== Sys2Proof/Tests/Slice0.lean ====
section
/-! SUPPORT. The model's own tests, all with expected values from spec/ (95_test_vectors.md unless a test says otherwise), and
for each statement of Certificates/Slice0/Obligations.lean that has hypotheses a witness that meets them. -/

namespace Sys2Proof.Tests

open Sys2Proof Sys2Proof.Machine Sys2Proof.Claims

/-- The response word to a command word. -/
def answerWord (w : CommandWord) : Option ResponseWord := (respond (Command.ofWord w)).map Response.toWord

/-- A unit with this command on its inputs and no response given yet. -/
def presented (op : OpCode) (p q : Position) (b a : Data) : State := State.reset.present ⟨op, p, q, b, a⟩

/-! ### WellFormed refuses an ill-formed term, for each check (R39: positions 0 to 255) -/

theorem test_wellFormed_accepts_255 : (Instr.extract32 0 255 255).wellFormed = true := by decide
theorem test_wellFormed_refuses_first_position_256 : (Instr.extract32 0 256 0).wellFormed = false := by decide
theorem test_wellFormed_refuses_second_position_256 : (Instr.deposit64 0 0 256 0).wellFormed = false := by decide
theorem test_wellFormed_refuses_high_256 : (Instr.getField64 0 256 0).wellFormed = false := by decide
theorem test_wellFormed_refuses_low_300 : (Instr.setField32 0 0 300 0).wellFormed = false := by decide

/-! ### Decoding: for every constructor a word written out from R30 and R33, unread bits set where R35 lets them be -/

theorem test_decode_extract32 :
    decodeWord 0x12_1F_05_FFFFFFFFFFFFFFFF_FFFFFFFF89ABCDEF = .instr (.extract32 0x89ABCDEF 31 5) := by decide
theorem test_decode_extract64 :
    decodeWord 0x13_1F_05_FFFFFFFFFFFFFFFF_0123456789ABCDEF = .instr (.extract64 0x0123456789ABCDEF 31 5) := by decide
theorem test_decode_getField32 :
    decodeWord 0x22_1F_05_FFFFFFFFFFFFFFFF_FFFFFFFF89ABCDEF = .instr (.getField32 0x89ABCDEF 31 5) := by decide
theorem test_decode_getField64 :
    decodeWord 0x23_1F_05_FFFFFFFFFFFFFFFF_0123456789ABCDEF = .instr (.getField64 0x0123456789ABCDEF 31 5) := by decide
theorem test_decode_deposit32 :
    decodeWord 0x32_FF_05_AAAAAAAA76543210_FFFFFFFF89ABCDEF = .instr (.deposit32 0x89ABCDEF 255 5 0x76543210) := by decide
theorem test_decode_deposit64 :
    decodeWord 0x33_FF_05_FEDCBA9876543210_0123456789ABCDEF = .instr (.deposit64 0x0123456789ABCDEF 255 5 0xFEDCBA9876543210) := by decide
theorem test_decode_setField32 :
    decodeWord 0x42_FF_05_AAAAAAAA76543210_FFFFFFFF89ABCDEF = .instr (.setField32 0x89ABCDEF 255 5 0x76543210) := by decide
theorem test_decode_setField64 :
    decodeWord 0x43_FF_05_FEDCBA9876543210_0123456789ABCDEF = .instr (.setField64 0x0123456789ABCDEF 255 5 0xFEDCBA9876543210) := by decide
theorem test_decode_countOnes8 :
    decodeWord 0x50_FF_7F_FFFFFFFFFFFFFFFF_FFFFFFFFFFFFFF81 = .instr (.countOnes8 0x81) := by decide
theorem test_decode_countOnes16 :
    decodeWord 0x51_FF_7F_FFFFFFFFFFFFFFFF_FFFFFFFFFFFF8001 = .instr (.countOnes16 0x8001) := by decide
theorem test_decode_countOnes32 :
    decodeWord 0x52_FF_7F_FFFFFFFFFFFFFFFF_FFFFFFFF80000001 = .instr (.countOnes32 0x80000001) := by decide
theorem test_decode_countOnes64 :
    decodeWord 0x53_FF_7F_FFFFFFFFFFFFFFFF_8000000000000001 = .instr (.countOnes64 0x8000000000000001) := by decide
theorem test_decode_countZeros8 :
    decodeWord 0x60_FF_7F_FFFFFFFFFFFFFFFF_FFFFFFFFFFFFFF81 = .instr (.countZeros8 0x81) := by decide
theorem test_decode_countZeros16 :
    decodeWord 0x61_FF_7F_FFFFFFFFFFFFFFFF_FFFFFFFFFFFF8001 = .instr (.countZeros16 0x8001) := by decide
theorem test_decode_countZeros32 :
    decodeWord 0x62_FF_7F_FFFFFFFFFFFFFFFF_FFFFFFFF80000001 = .instr (.countZeros32 0x80000001) := by decide
theorem test_decode_countZeros64 :
    decodeWord 0x63_FF_7F_FFFFFFFFFFFFFFFF_8000000000000001 = .instr (.countZeros64 0x8000000000000001) := by decide
theorem test_decode_countTrailingZeros32 :
    decodeWord 0x72_FF_7F_FFFFFFFFFFFFFFFF_FFFFFFFF80000001 = .instr (.countTrailingZeros32 0x80000001) := by decide
theorem test_decode_countTrailingZeros64 :
    decodeWord 0x73_FF_7F_FFFFFFFFFFFFFFFF_8000000000000001 = .instr (.countTrailingZeros64 0x8000000000000001) := by decide
theorem test_decode_countTrailingOnes32 :
    decodeWord 0x82_FF_7F_FFFFFFFFFFFFFFFF_FFFFFFFF80000001 = .instr (.countTrailingOnes32 0x80000001) := by decide
theorem test_decode_countTrailingOnes64 :
    decodeWord 0x83_FF_7F_FFFFFFFFFFFFFFFF_8000000000000001 = .instr (.countTrailingOnes64 0x8000000000000001) := by decide

theorem test_decode_reserved_extract16 : decodeWord 0x11_04_04_0000000000000000_00000000F0F0F0F0 = .reserved 0x11 := by decide
theorem test_decode_reserved_bits_3_2 : decodeWord 0x5B_04_04_0000000000000000_00000000F0F0F0F0 = .reserved 0x5B := by decide
theorem test_decode_reserved_all_ones : decodeWord 0xFF_04_04_0000000000000000_00000000F0F0F0F0 = .reserved 0xFF := by decide
theorem test_decodeTableWord : decodeTableWord 152 0x42_13_04_0000000000001234_00000000F0F0F0F0 =
    some (.setField32 0xF0F0F0F0 19 4 0x1234) := by decide
theorem test_decodeTableWord_reserved : decodeTableWord 152 0x30_04_04_0000000000000000_00000000F0F0F0F0 = none := by decide
theorem test_encode_canonical : encodeWord (.deposit32 0xF0F0F0F0 4 16 0x1234) =
    0x32_04_10_0000000000001234_00000000F0F0F0F0 := by decide

/-! ### One step of each instruction -/

theorem test_extract32 : answerWord 0x12_04_04_0000000000000000_00000000F0F0F0F0 = some 0x0_000000000000000F := by decide
theorem test_extract32_fails : answerWord 0x12_20_00_0000000000000001_AAAAAAAAF0F0F0F0 = some 0x1_00000000F0F0F0F0 := by decide
theorem test_extract64 : answerWord 0x13_1C_08_0000000000000000_0123456789ABCDEF = some 0x0_0000000000000078 := by decide
theorem test_extract64_fails : answerWord 0x13_40_00_0000000000000000_0123456789ABCDEF = some 0x1_0123456789ABCDEF := by decide
theorem test_getField32 : answerWord 0x22_1F_1F_0000000000000000_00000000F0F0F0F0 = some 0x0_0000000000000001 := by decide
theorem test_getField32_fails : answerWord 0x22_03_04_0000000000000000_00000000F0F0F0F0 = some 0x1_00000000F0F0F0F0 := by decide
theorem test_getField64 : answerWord 0x23_27_20_0000000000000000_0123456789ABCDEF = some 0x0_0000000000000067 := by decide
theorem test_getField64_fails : answerWord 0x23_3F_40_0000000000000000_0123456789ABCDEF = some 0x1_0123456789ABCDEF := by decide
theorem test_deposit32 : answerWord 0x32_04_10_FFFFFFFF00001234_55555555F0F0F0F0 = some 0x0_00000000F0F12340 := by decide
theorem test_deposit32_fails : answerWord 0x32_1C_05_000000000000000A_00000000F0F0F0F0 = some 0x1_00000000F0F0F0F0 := by decide
theorem test_deposit64 : answerWord 0x33_1A_0C_FEDCBA9876543210_FFFF0000FFFF0000 = some 0x0_FFFF000843FF0000 := by decide
theorem test_deposit64_fails : answerWord 0x33_3C_05_000000000000001F_0123456789ABCDEF = some 0x1_0123456789ABCDEF := by decide
theorem test_setField32 : answerWord 0x42_0F_0F_00000000FFFFFFFF_0000000000000000 = some 0x0_0000000000008000 := by decide
theorem test_setField32_fails : answerWord 0x42_1F_20_000000000000000F_00000000F0F0F0F0 = some 0x1_00000000F0F0F0F0 := by decide
theorem test_setField64 : answerWord 0x43_2F_10_0000000000000000_FFFFFFFFFFFFFFFF = some 0x0_FFFF00000000FFFF := by decide
theorem test_setField64_fails : answerWord 0x43_40_00_000000000000000F_0123456789ABCDEF = some 0x1_0123456789ABCDEF := by decide
theorem test_countOnes8 : answerWord 0x50_FF_FF_FFFFFFFFFFFFFFFF_FFFFFFFFFFFFFFA5 = some 0x0_0000000000000004 := by decide
theorem test_countOnes16 : answerWord 0x51_00_00_0000000000000000_000000000000A5A5 = some 0x0_0000000000000008 := by decide
theorem test_countOnes32 : answerWord 0x52_00_00_0000000000000000_0000000012345678 = some 0x0_000000000000000D := by decide
theorem test_countOnes64 : answerWord 0x53_00_00_0000000000000000_FFFFFFFF00000000 = some 0x0_0000000000000020 := by decide
theorem test_countZeros8 : answerWord 0x60_00_00_0000000000000000_0000000000000000 = some 0x0_0000000000000008 := by decide
theorem test_countZeros16 : answerWord 0x61_07_09_0000000000000000_FFFFFFFFFFFF00FF = some 0x0_0000000000000008 := by decide
theorem test_countZeros32 : answerWord 0x62_00_00_0000000000000000_0000000080000000 = some 0x0_000000000000001F := by decide
theorem test_countZeros64 : answerWord 0x63_00_00_0000000000000000_0000000000000001 = some 0x0_000000000000003F := by decide
theorem test_countTrailingZeros32 : answerWord 0x72_01_02_0000000000000003_FFFFFFFF00000000 = some 0x0_0000000000000020 := by decide
theorem test_countTrailingZeros32_second : answerWord 0x72_00_00_0000000000000000_0000000040000000 = some 0x0_000000000000001E := by decide
theorem test_countTrailingZeros64 : answerWord 0x73_00_00_0000000000000000_0001000000000000 = some 0x0_0000000000000030 := by decide
theorem test_countTrailingZeros64_second : answerWord 0x73_00_00_0000000000000000_0000000000000000 = some 0x0_0000000000000040 := by decide
theorem test_countTrailingOnes32 : answerWord 0x82_00_00_0000000000000000_FFFFFFFFFFFFFFFF = some 0x0_0000000000000020 := by decide
theorem test_countTrailingOnes32_second : answerWord 0x82_00_00_0000000000000000_0000000012345677 = some 0x0_0000000000000003 := by decide
theorem test_countTrailingOnes64 : answerWord 0x83_00_00_0000000000000000_00000000FFFFFFFF = some 0x0_0000000000000020 := by decide
theorem test_countTrailingOnes64_second : answerWord 0x83_00_00_0000000000000000_FFFFFFFFFFFFFFFE = some 0x0_0000000000000000 := by decide

theorem test_reserved_step_refused : step (presented 0x16 4 4 0 0xF0F0F0F0) = .refused (.reservedOpCode 0x16) := by rfl
theorem test_reserved_has_no_response : answerWord 0x00_04_04_0000000000000000_00000000F0F0F0F0 = none := by decide
theorem test_withFetchWord_runs_next :
    step (State.reset.withFetchWord 152 0x50_00_00_0000000000000000_00000000000000A5) =
      .next ⟨⟨0x50, 0, 0, 0, 0xA5⟩, some ⟨false, 4⟩⟩ := by rfl

/-! ### The output ports follow the inputs (R14: "not a stored bit ... not sticky") -/

theorem test_err_follows_a_new_command :
    (⟨⟨0x22, 3, 4, 0, 9⟩, some ⟨true, 9⟩⟩ : State).err = some true ∧
    ((⟨⟨0x22, 3, 4, 0, 9⟩, some ⟨true, 9⟩⟩ : State).present ⟨0x50, 3, 4, 0, 9⟩).err = some false := by decide
theorem test_result_follows_a_new_command : ((presented 0x22 3 4 0 9).present ⟨0x50, 3, 4, 0, 9⟩).result = some 2 := by decide
theorem test_outputs_of_reserved_code : (presented 0x10 3 4 0 9).outputs = none := by decide

/-! ### The reference structures, on the worked runs of 42_popcount.md and 43_trailing.md -/

theorem test_tree_worked_run : (List.range 4).map (swarWord 0xA5#8) = [0xA5, 0x55, 0x22, 0x04] := by decide
theorem test_halving_worked_run : ctz32ref 0x80000000 = 31 ∧ ctz32ref 0xFFFFFFF0 = 4 ∧ ctz32ref 0 = 32 := by decide
theorem test_split_both_halves : ctz64ref 0x0000000100000000 = 32 ∧ ctz64ref 0x0000000080000000 = 31 := by decide

/-! ### Text form (R39, R40) -/

theorem test_text_command : (Instr.deposit32 0xF0F0F0F0 4 16 0x1234).text = "deposit32 0xF0F0F0F0, 4, 16, 0x1234" := by decide
theorem test_text_response : Response.text .startLength ⟨true, 0xF0F0F0F0⟩ = "-> 0xF0F0F0F0, InvalidRange" := by decide
theorem test_text_count_response : Response.text .value ⟨false, 16⟩ = "-> 16" := by decide
theorem test_assemble_order : assembleText "setField32" [0xF0F0F0F0, 19, 4, 0x1234] =
    some (.setField32 0xF0F0F0F0 19 4 0x1234) := by decide
theorem test_assemble_refuses_wide_value : assembleText "countOnes8" [256] = none := by decide
theorem test_spelling_of_source_code : mnemonicOfSpelling "CountTrailZero32" 32 = some "countTrailingZeros32" := by decide
theorem test_spelling_capitalised : mnemonicOfSpelling "GetField" 64 = some "getField64" := by decide
theorem test_spelling_absent_width : mnemonicOfSpelling "extract" 8 = none := by decide

/-! ### Witnesses: concrete data that meet the hypotheses of each statement -/

theorem witness_DecodeOfEncodeIsIdentity :
    (Instr.setField64 0x0123456789ABCDEF 255 0 0xF).wellFormed = true := by decide

theorem witness_EncodeOfDecodeIsCanonical :
    decode ⟨0x42, 19, 4, 0xFFFFFFFF00001234, 0xFFFFFFFFF0F0F0F0⟩ = .instr (.setField32 0xF0F0F0F0 19 4 0x1234) ∧
      ∃ r, lookup 0x42 = some r ∧ r.width = 32 := ⟨by decide, _, rfl, rfl⟩

theorem witness_ResponseWordLayout :
    (∃ r, lookup 0x50 = some r ∧ r.width = 8 ∧ r.form.isField = false) ∧
      respond ⟨0x50, 0, 0, 0, 0xFF⟩ = some ⟨false, 8⟩ := ⟨⟨_, rfl, rfl, rfl⟩, by decide⟩

theorem witness_DecoderFollowsTable :
    ((0x83 : OpCode), "countTrailingOnes64", 64) ∈ definedOps ∧ (0x84 : OpCode) ∉ definedCodes := by decide

theorem witness_ReservedOpCodesRefused :
    (presented 0x10 0 0 0 0).inp.op ∉ definedCodes ∧ (0x16 : OpCode).toNat / 4 % 4 ≠ 0 ∧ (0x0F : OpCode).toNat / 16 = 0 ∧
      (0x90 : OpCode).toNat / 16 ≥ 9 := by decide

theorem witness_AssembleOfTextIsIdentity :
    (Instr.deposit32 0xFFFFFFFF 255 255 0xFFFFFFFF).wellFormed = true ∧
      assembleText "countOnes16" [0xFFFF] = some (.countOnes16 0xFFFF) := by decide

theorem witness_StepRunsDecodedInstruction :
    decode (presented 0x72 0 0 0 0).inp = .instr (.countTrailingZeros32 0) ∧ (Instr.countTrailingZeros32 0).wellFormed = true := by decide

theorem witness_ResponseDependsOnCommandAlone :
    respond ⟨0x12, 32, 0, 0, 7⟩ = some ⟨true, 7⟩ ∧ respond ⟨0x10, 32, 0, 0, 7⟩ = none := by decide

theorem witness_UnreadBitsHaveNoEffect :
    (∃ r, lookup 0x32 = some r ∧ r.width = 32) ∧ (0xFFFFFFFF00000001 : Data).toNat % 2 ^ 32 = (1 : Data).toNat % 2 ^ 32 ∧
      (0xAAAAAAAA00000002 : Data).toNat % 2 ^ 32 = (2 : Data).toNat % 2 ^ 32 := ⟨⟨_, rfl, rfl⟩, by decide, by decide⟩

theorem witness_StreamResponsesAreIndependent :
    ∀ c ∈ [(⟨0x12, 32, 0, 0, 7⟩ : Command), ⟨0x83, 0, 0, 0, 7⟩], c.op ∈ definedCodes := by decide

theorem witness_RequestersDoNotInterfere :
    ∀ e ∈ [(0, (⟨0x12, 32, 0, 0, 7⟩ : Command)), (1, ⟨0x83, 0, 0, 0, 7⟩), (0, ⟨0x50, 0, 0, 0, 1⟩)], e.2.op ∈ definedCodes := by decide

theorem witness_StepIsIdempotent :
    step (presented 0x60 0 0 0 0) = .next ⟨⟨0x60, 0, 0, 0, 0⟩, some ⟨false, 8⟩⟩ := by rfl

theorem witness_StepKeepsResponseLegal :
    (⟨⟨0x12, 0, 33, 0, 7⟩, some ⟨true, 7⟩⟩ : State).ResponseLegal ∧ (⟨⟨0x12, 0, 33, 0, 7⟩, some ⟨true, 7⟩⟩ : State).Coherent ∧
      step ⟨⟨0x12, 0, 33, 0, 7⟩, some ⟨true, 7⟩⟩ = .next ⟨⟨0x12, 0, 33, 0, 7⟩, some ⟨true, 7⟩⟩ := by
  refine ⟨fun r x hr hx => ?_, fun x hx => ?_, by rfl⟩
  · cases hr
    cases hx
    exact ⟨by decide, fun _ => ⟨rfl, by decide⟩, fun h => (by cases h)⟩
  · cases hx
    rfl

theorem witness_OutputsFollowTheCommand :
    (presented 0x32 31 2 0 7).inp.op ∈ definedCodes ∧ (0x50 : OpCode) ∈ definedCodes ∧
      step (presented 0x32 31 2 0 7) = .next ⟨⟨0x32, 31, 2, 0, 7⟩, some ⟨true, 7⟩⟩ :=
  ⟨by decide, by decide, by rfl⟩

theorem witness_InvalidRangeCauses_startLength :
    respond ⟨0x12, 31, 1, 0, 0⟩ = some ⟨false, 0⟩ ∧ respond ⟨0x12, 31, 2, 0, 0⟩ = some ⟨true, 0⟩ ∧
      respond ⟨0x32, 32, 0, 0, 0⟩ = some ⟨true, 0⟩ ∧ respond ⟨0x13, 63, 1, 0, 0⟩ = some ⟨false, 0⟩ ∧
      respond ⟨0x33, 64, 0, 0, 0⟩ = some ⟨true, 0⟩ := by decide

theorem witness_InvalidRangeCauses_highLow :
    respond ⟨0x22, 31, 31, 0, 0⟩ = some ⟨false, 0⟩ ∧ respond ⟨0x42, 30, 31, 0, 0⟩ = some ⟨true, 0⟩ ∧
      respond ⟨0x22, 32, 31, 0, 0⟩ = some ⟨true, 0⟩ ∧ respond ⟨0x23, 63, 63, 0, 0⟩ = some ⟨false, 0⟩ ∧
      respond ⟨0x43, 63, 64, 0, 0⟩ = some ⟨true, 0⟩ := by decide

theorem witness_ErrorEchoesValueOperand :
    (∃ r, lookup 0x42 = some r ∧ r.width = 32) ∧
      step (presented 0x42 32 0 5 0xFFFFFFFF00000007) = .next ⟨⟨0x42, 32, 0, 5, 0xFFFFFFFF00000007⟩, some ⟨true, 7⟩⟩ := ⟨⟨_, rfl, rfl⟩, by rfl⟩

theorem witness_FailingCommandLeavesNothing :
    step (State.reset.present ⟨0x22, 3, 4, 0, 9⟩) = .next ⟨⟨0x22, 3, 4, 0, 9⟩, some ⟨true, 9⟩⟩ := by rfl

theorem witness_RangeCheck_boundaries :
    rangeOK 32 31 1 = true ∧ rangeOK 32 31 0 = true ∧ rangeOK 32 32 0 = false ∧ rangeOK 32 0 33 = false ∧ rangeOK 64 0 64 = true ∧
      rangeOK 64 64 0 = false := by decide

theorem witness_MaskHasLowBits_boundaries :
    (maskOfWidth 32 0).toNat = 0 ∧ (maskOfWidth 64 64).toNat = 2 ^ 64 - 1 ∧ (1 ≤ 64 ∧ 64 ≤ 64) := by decide

theorem witness_BoundsTranslation_boundaries :
    boundsOK 32 31 31 = true ∧ boundsOK 32 31 0 = true ∧ boundsOK 32 0 1 = false ∧ boundsOK 64 64 0 = false := by decide

theorem witness_Extract32 :
    (presented 0x12 4 4 0 0).inp.op = 0x12 := rfl

theorem witness_Extract64 :
    (presented 0x13 4 4 0 0).inp.op = 0x13 := rfl

theorem witness_GetField32 :
    (presented 0x22 4 4 0 0).inp.op = 0x22 := rfl

theorem witness_GetField64 :
    (presented 0x23 4 4 0 0).inp.op = 0x23 := rfl

theorem witness_Deposit32 :
    (presented 0x32 4 4 0 0).inp.op = 0x32 := rfl

theorem witness_Deposit64 :
    (presented 0x33 4 4 0 0).inp.op = 0x33 := rfl

theorem witness_SetField32 :
    (presented 0x42 4 4 0 0).inp.op = 0x42 := rfl

theorem witness_SetField64 :
    (presented 0x43 4 4 0 0).inp.op = 0x43 := rfl

theorem witness_CountTrailingZeros32 :
    (presented 0x72 4 4 0 0).inp.op = 0x72 := rfl

theorem witness_CountTrailingZeros64 :
    (presented 0x73 4 4 0 0).inp.op = 0x73 := rfl

theorem witness_CountTrailingOnes32 :
    (presented 0x82 4 4 0 0).inp.op = 0x82 := rfl

theorem witness_CountTrailingOnes64 :
    (presented 0x83 4 4 0 0).inp.op = 0x83 := rfl

theorem witness_ExtractionLaws :
    (31 + 1 ≤ 32 ∧ 1 ≤ 1 ∧ 0 + 64 ≤ 64 ∧ 1 ≤ 64) ∧ exec (.extract32 0xF0 4 4) State.reset = .next ⟨State.reset.inp, some ⟨false, 0xF⟩⟩ ∧
      exec (.extract64 1 0 64) State.reset = .next ⟨State.reset.inp, some ⟨false, 1⟩⟩ := ⟨by decide, by rfl, by rfl⟩

theorem witness_MergeBitByBit :
    rangeOK 32 31 1 = true ∧ rangeOK 64 5 0 = true := by decide

theorem witness_DepositExtractRoundTrip :
    rangeOK 32 0 32 = true ∧ rangeOK 64 63 1 = true := by decide

theorem witness_CountOnes :
    (presented 0x50 0 0 0 0).inp.op = 0x50 ∧ (presented 0x51 0 0 0 0).inp.op = 0x51 ∧ (presented 0x52 0 0 0 0).inp.op = 0x52 ∧
      (presented 0x53 0 0 0 0).inp.op = 0x53 := ⟨rfl, rfl, rfl, rfl⟩

theorem witness_CountZeros :
    (presented 0x60 0 0 0 0).inp.op = 0x60 ∧ (presented 0x61 0 0 0 0).inp.op = 0x61 ∧ (presented 0x62 0 0 0 0).inp.op = 0x62 ∧
      (presented 0x63 0 0 0 0).inp.op = 0x63 := ⟨rfl, rfl, rfl, rfl⟩

theorem witness_CountWidths :
    [8, 16, 32, 64].all (fun W => decide (W ∈ [8, 16, 32, 64])) = true := by decide

theorem witness_TreeStageHoldsGroupCounts :
    (64 ∈ [8, 16, 32, 64] ∧ 6 ≤ Nat.log2 64 ∧ 0 < 64 / 2 ^ 6) ∧ (8 ∈ [8, 16, 32, 64] ∧ 0 ≤ Nat.log2 8 ∧ 7 < 8 / 2 ^ 0) := by decide

theorem witness_CtzIsLowestOnePosition :
    (0x80000000#32 ≠ 0#32) ∧ ctz 0x80000000#32 = 31 ∧ ctz 0#64 = 64 := by decide

theorem witness_TrailingCountIsExactlyTheRun :
    (32 ≤ 32 ∧ 0 ≤ 32 ∧ 64 ≤ 64) ∧ IsRun false 32 0 32 ∧ IsRun true 8 0x0F 4 := by
  refine ⟨by decide, ⟨by decide, fun i _ => by simp, fun h => absurd h (by decide)⟩, ⟨by decide, ?_, fun _ => by decide⟩⟩
  intro i hi
  have : i = 0 ∨ i = 1 ∨ i = 2 ∨ i = 3 := by omega
  rcases this with rfl | rfl | rfl | rfl <;> decide

theorem witness_TrailingLaws :
    (1#32 ≠ 0#32) ∧ (0x8000000000000000#64 ≠ 0#64) := by decide

theorem witness_SaturationKeepsTheResponse :
    (Instr.extract32 7 256 0).saturate = .extract32 7 255 0 := by decide

end Sys2Proof.Tests
end

section
/-! Proofs of the scope statements (00_scope.md R6). First what the decoder gives, for every command and for canonical words; then
what `exec`, `respond` and `step` answer, said once for every instruction and every command; then the statements. -/

namespace Sys2Proof

/-! ### The decoder -/

/-- The five ports share no bit of `CMD`, so taking the word apart undoes putting it together (R30). The widths stay sums,
because the library's lemmas on `++` are stated at a sum. -/
@[simp] theorem Command.ofWord_toWord (c : Command) : Command.ofWord c.toWord = c := by
  simp [-Nat.reduceAdd, Command.ofWord, Command.toWord, BitVec.extractLsb'_append_eq_of_le, BitVec.extractLsb'_append_eq_right]

/-- Decoding undoes encoding: the op code names the row, and the row reads each operand from the field that `encode` put it in;
only a position can be too wide for its field (R38, R41). -/
theorem decode_encode {i : Instr} (h : i.wellFormed = true) : decode (encode i) = .instr i := by
  cases i with
  | extract32 => rw [decode_extract32 rfl]; simpa [encode, Instr.wellFormed] using h
  | extract64 => rw [decode_extract64 rfl]; simpa [encode, Instr.wellFormed] using h
  | getField32 => rw [decode_getField32 rfl]; simpa [encode, Instr.wellFormed] using h
  | getField64 => rw [decode_getField64 rfl]; simpa [encode, Instr.wellFormed] using h
  | deposit32 => rw [decode_deposit32 rfl]; simpa [encode, Instr.wellFormed] using h
  | deposit64 => rw [decode_deposit64 rfl]; simpa [encode, Instr.wellFormed] using h
  | setField32 => rw [decode_setField32 rfl]; simpa [encode, Instr.wellFormed] using h
  | setField64 => rw [decode_setField64 rfl]; simpa [encode, Instr.wellFormed] using h
  | countOnes8 => rw [decode_countOnes8 rfl]; simp [encode]
  | countOnes16 => rw [decode_countOnes16 rfl]; simp [encode]
  | countOnes32 => rw [decode_countOnes32 rfl]; simp [encode]
  | countOnes64 => rw [decode_countOnes64 rfl]; simp [encode]
  | countZeros8 => rw [decode_countZeros8 rfl]; simp [encode]
  | countZeros16 => rw [decode_countZeros16 rfl]; simp [encode]
  | countZeros32 => rw [decode_countZeros32 rfl]; simp [encode]
  | countZeros64 => rw [decode_countZeros64 rfl]; simp [encode]
  | countTrailingZeros32 => rw [decode_countTrailingZeros32 rfl]; simp [encode]
  | countTrailingZeros64 => rw [decode_countTrailingZeros64 rfl]; simp [encode]
  | countTrailingOnes32 => rw [decode_countTrailingOnes32 rfl]; simp [encode]
  | countTrailingOnes64 => rw [decode_countTrailingOnes64 rfl]; simp [encode]

theorem notMem_definedCodes_iff {op : OpCode} : op ∉ Claims.definedCodes ↔ lookup op = none :=
  lookup_eq_none_iff.symm

theorem decode_cases (c : Command) :
    (c.op ∈ Claims.definedCodes ∧ ∃ i, decode c = .instr i) ∨
    (c.op ∉ Claims.definedCodes ∧ decode c = .reserved c.op) := by
  cases hl : lookup c.op with
  | none => exact .inr ⟨notMem_definedCodes_iff.mpr hl, decode_eq_reserved_iff.mpr ⟨hl, rfl⟩⟩
  | some r =>
    refine .inl ⟨by_contra fun hm => ?_, r.assemble c, by rw [decode, hl]⟩
    simp [notMem_definedCodes_iff.mp hm] at hl

end Sys2Proof

namespace Sys2Proof.Machine

open Sys2Proof.Claims

/-! ### What an instruction can do -/

/-- Every instruction ends in one of two shared operations, the response of a field operation or that of a count, and the state
has no part in the response of either. -/
theorem exec_completes (i : Instr) : ∃ x : Response, ∀ s : State, exec i s = .next { s with response := some x } := by
  cases i
  case extract32 | extract64 | getField32 | getField64 | deposit32 | deposit64 | setField32 | setField64 =>
    exact ⟨_, fieldOutcome_eq _ _ _⟩
  all_goals exact ⟨_, countOutcome_eq _⟩

/-! ### What a step can do -/

/-- `respond` asks a step of a unit with no response yet; the step of the unit as it stands gives the same one. -/
theorem respond_of_decode {s : State} {i : Instr} (hd : decode s.inp = .instr i) :
    ∃ x, respond s.inp = some x ∧ step s = .next { s with response := some x } := by
  obtain ⟨x, hx⟩ := exec_completes i
  refine ⟨x, ?_, (step_of_decode hd).trans (hx s)⟩
  rw [respond, step_of_decode (s := ⟨s.inp, none⟩) hd, hx]

theorem respond_of_reserved {c : Command} {op : OpCode} (hd : decode c = .reserved op) : respond c = none := by
  rw [respond, step_of_reserved (s := ⟨c, none⟩) hd]

/-- A step gives the response of a defined command and changes nothing else, or refuses a reserved one by name (R6, R36). -/
theorem step_cases (s : State) :
    (s.inp.op ∈ definedCodes ∧ ∃ x, respond s.inp = some x ∧ step s = .next { s with response := some x }) ∨
    (s.inp.op ∉ definedCodes ∧ respond s.inp = none ∧ step s = .refused (.reservedOpCode s.inp.op)) := by
  obtain ⟨hm, i, hd⟩ | ⟨hm, hd⟩ := decode_cases s.inp
  · exact .inl ⟨hm, respond_of_decode hd⟩
  · exact .inr ⟨hm, respond_of_reserved hd, step_of_reserved hd⟩

/-- Presenting a canonical word, as a number, puts the canonical command on the input ports (R27, R30). -/
theorem State.withFetchWord_encodeWord (s : State) (nbits : Nat) (i : Instr) :
    s.withFetchWord nbits (encodeWord i).toNat = s.present (encode i) := by
  simp [encodeWord]

/-! ### The statements -/

/-- Settles O11: the recorded response is the whole difference, by the two shared operations that every meaning ends in. -/
theorem everyInstructionCompletes : Obligations.EveryInstructionCompletes :=
  exec_completes

/-- Settles O12, by the two cases of a step. -/
theorem responseDependsOnCommandAlone : Obligations.ResponseDependsOnCommandAlone := by
  intro s
  obtain ⟨hm, x, hr, hs⟩ | ⟨hm, hr, hs⟩ := step_cases s
  · exact ⟨by simp [hr, hs], by simp [hr], by simp [hr, hm], fun c => ⟨s.present_inp c, s.present_response c⟩⟩
  · exact ⟨by simp [hr], fun _ => hs, by simp [hr, hm], fun c => ⟨s.present_inp c, s.present_response c⟩⟩

/-- Settles O10: `step` dispatches on what it decoded, and the presented canonical command decodes to `i`. -/
theorem stepRunsDecodedInstruction : Obligations.StepRunsDecodedInstruction := by
  refine ⟨fun s i hd => step_of_decode hd, fun s i hw => ?_⟩
  rw [State.withFetchWord_encodeWord]
  exact step_of_decode (decode_encode hw)

end Sys2Proof.Machine
end

section
/-! Proofs of the state statements (10_state.md R12, R14). First the response of a command, said once by the row of its op code: a
field row answers the outcome of its range check, a count row a count of at most W. The statements then follow from
`step_next_iff`: the step of a state records the response of the command on its inputs. -/

namespace Sys2Proof.Machine

open Sys2Proof.Claims

/-! ### The rows of the op code table -/

/-- The range check that a row's form applies to the positions of a command (R50, R52); a count row has none (R101). -/
def rangeErr (r : Row) (c : Command) : Bool :=
  match r.form with
  | .value => false
  | .startLength | .startLengthField => errStartLength r.width c.p.toNat c.q.toNat
  | .highLow | .highLowField => errHighLow r.width c.p.toNat c.q.toNat

theorem mem_opTable_of_lookup {op : OpCode} {r : Row} (h : lookup op = some r) : r ∈ opTable :=
  List.mem_of_find?_eq_some h

theorem op_of_lookup {op : OpCode} {r : Row} (h : lookup op = some r) : r.op = op := by
  simpa using List.find?_some h

theorem decode_of_lookup {c : Command} {r : Row} (h : lookup c.op = some r) : decode c = .instr (r.assemble c) := by
  rw [decode, h]

theorem width_le_of_mem_opTable : ∀ r ∈ opTable, r.width ≤ 64 := by decide

theorem isField_of_mem_fieldRows : ∀ r ∈ extractRows ++ depositRows, r.form.isField = true := by decide

theorem form_of_mem_countRows : ∀ r ∈ popcountRows ++ trailingRows, r.form = .value := by decide

theorem mem_fieldRows_or_countRows {r : Row} (h : r ∈ opTable) :
    r ∈ extractRows ++ depositRows ∨ r ∈ popcountRows ++ trailingRows := by
  rwa [opTable, List.append_assoc, List.mem_append] at h

/-- Each of the eight field operations ends in the outcome of its form's range check, with `a[W-1:0]` to echo. -/
theorem exec_fieldRow {r : Row} (hr : r ∈ extractRows ++ depositRows) (c : Command) :
    ∃ v : BitVec r.width, ∀ s, exec (r.assemble c) s = fieldOutcome (rangeErr r c) (c.a.setWidth r.width) v s := by
  simp only [extractRows, depositRows, List.cons_append, List.nil_append, List.mem_cons, List.not_mem_nil, or_false] at hr
  rcases hr with rfl | rfl | rfl | rfl | rfl | rfl | rfl | rfl
  all_goals exact ⟨_, fun s => by simp only [BitVec.setWidth_eq]; rfl⟩

/-- The twelve counts in the table's order: four of ones, four of zeros as W minus the ones, four trailing counts. -/
theorem exec_countRow {r : Row} (hr : r ∈ popcountRows ++ trailingRows) (c : Command) :
    ∃ n ≤ r.width, ∀ s, exec (r.assemble c) s = countOutcome n s := by
  simp only [popcountRows, trailingRows, List.cons_append, List.nil_append, List.mem_cons, List.not_mem_nil, or_false] at hr
  rcases hr with rfl | rfl | rfl | rfl | rfl | rfl | rfl | rfl | rfl | rfl | rfl | rfl
  iterate 4 exact ⟨_, popCount_le _, fun _ => rfl⟩
  iterate 4 exact ⟨_, Nat.sub_le _ _, fun _ => rfl⟩
  iterate 4 exact ⟨_, ctz_le _, fun _ => rfl⟩

theorem errStartLength_iff {w start length : Nat} :
    errStartLength w start length = true ↔ start > w - 1 ∨ length > w - start := by
  rw [← Bool.not_eq_false, errStartLength_eq_false_iff]
  omega

theorem errHighLow_iff {w high low : Nat} :
    errHighLow w high low = true ↔ high > w - 1 ∨ low > w - 1 ∨ high < low := by
  rw [← Bool.not_eq_false, errHighLow_eq_false_iff]
  omega

/-- The range check of a command's row fails exactly on the causes of R101, which go by op code. -/
theorem rangeErr_iff_cause {c : Command} {r : Row} (h : lookup c.op = some r) :
    rangeErr r c = true ↔ InvalidRangeCause c := by
  have hop := op_of_lookup h
  have hm := mem_opTable_of_lookup h
  simp only [opTable, extractRows, depositRows, popcountRows, trailingRows, List.cons_append, List.nil_append,
    List.mem_cons, List.not_mem_nil, or_false] at hm
  rcases hm with rfl | rfl | rfl | rfl | rfl | rfl | rfl | rfl | rfl | rfl | rfl | rfl | rfl | rfl | rfl | rfl | rfl | rfl | rfl | rfl
  all_goals simp [rangeErr, InvalidRangeCause, ← hop, errStartLength_iff, errHighLow_iff]

/-! ### The response of a command -/

theorem step_next_iff {s t : State} : step s = .next t ↔ ∃ x, respond s.inp = some x ∧ t = { s with response := some x } := by
  obtain ⟨-, x, hr, hs⟩ | ⟨-, hr, hs⟩ := step_cases s <;> simp [hr, hs, eq_comm]

theorem respond_of_defined {c : Command} (h : c.op ∈ definedCodes) : ∃ x, respond c = some x := by
  obtain ⟨-, x, hx, -⟩ | ⟨hn, -⟩ := step_cases ⟨c, none⟩
  · exact ⟨x, hx⟩
  · exact absurd h hn

theorem respond_of_exec {c : Command} {i : Instr} {x : Response} (hd : decode c = .instr i)
    (hx : ∀ s, exec i s = .next { s with response := some x }) : respond c = some x := by
  rw [respond, step_of_decode (s := ⟨c, none⟩) hd, hx]

/-- The response of a command by its row: the outcome of the range check, or a count that its width bounds (R12, R102). -/
theorem respond_row {c : Command} {r : Row} (h : lookup c.op = some r) :
    (r.form.isField = true ∧ ∃ v : BitVec r.width,
      respond c = some ⟨rangeErr r c, if rangeErr r c then (c.a.setWidth r.width).setWidth 64 else v.setWidth 64⟩) ∨
    (r.form = .value ∧ ∃ n ≤ r.width, respond c = some ⟨false, BitVec.ofNat 64 n⟩) := by
  have hd := decode_of_lookup h
  obtain hr | hr := mem_fieldRows_or_countRows (mem_opTable_of_lookup h)
  · obtain ⟨v, hv⟩ := exec_fieldRow hr c
    exact .inl ⟨isField_of_mem_fieldRows r hr, v, respond_of_exec hd fun s => (hv s).trans (fieldOutcome_eq ..)⟩
  · obtain ⟨n, hn, hx⟩ := exec_countRow hr c
    exact .inr ⟨form_of_mem_countRows r hr, n, hn, respond_of_exec hd fun s => (hx s).trans (countOutcome_eq n s)⟩

theorem respond_err {c : Command} {r : Row} {x : Response} (h : lookup c.op = some r) (hx : respond c = some x) :
    x.err = rangeErr r c := by
  obtain ⟨-, v, hr⟩ | ⟨hf, n, -, hr⟩ := respond_row h
  · cases hr.symm.trans hx; rfl
  · cases hr.symm.trans hx; rw [rangeErr, hf]

/-- R101: the error of a response, by op code and positions alone. -/
theorem respond_err_iff_cause {c : Command} {x : Response} (hx : respond c = some x) :
    x.err = true ↔ InvalidRangeCause c := by
  cases hl : lookup c.op with
  | none => simp [respond_of_reserved (decode_eq_reserved_iff.mpr ⟨hl, rfl⟩)] at hx
  | some r => rw [respond_err hl hx, rangeErr_iff_cause hl]

/-- Every response is legal: zero-extending to the port keeps the W-bit result, and a count at most W fits in W bits. -/
theorem respond_legal {c : Command} {r : Row} {x : Response} (h : lookup c.op = some r) (hx : respond c = some x) :
    legalResponse r c x := by
  have hw := width_le_of_mem_opTable r (mem_opTable_of_lookup h)
  obtain ⟨hf, v, hr⟩ | ⟨hf, n, hn, hr⟩ := respond_row h
  · cases hr.symm.trans hx
    have port_toNat (u : BitVec r.width) : (u.setWidth 64).toNat = u.toNat := BitVec.toNat_setWidth_of_le hw
    cases rangeErr r c with
    | true => simp [legalResponse, hf, port_toNat, Nat.mod_lt]
    | false => simp [legalResponse, hf, port_toNat, v.isLt]
  · cases hr.symm.trans hx
    have count_toNat : (BitVec.ofNat 64 n).toNat = n := Nat.mod_eq_of_lt (by omega)
    exact ⟨count_toNat.trans_lt (hn.trans_lt Nat.lt_two_pow_self), nofun, fun _ => count_toNat.trans_le hn⟩

/-! ### The statements -/

/-- Settles O17: the step records the response of the command on its inputs, which is legal and what the ports show, whatever
response stood there. -/
theorem stepKeepsResponseLegal : Obligations.StepKeepsResponseLegal := by
  intro s t _ hs
  obtain ⟨x, hx, rfl⟩ := step_next_iff.mp hs
  refine ⟨⟨fun r y hl hy => ?_, fun y hy => ?_⟩, rfl⟩
  · cases hy; exact respond_legal hl hx
  · cases hy; exact hx

/-- Settles O52: `err` and `result` are those of `respond`, which reads the inputs alone, and a step records that response. -/
theorem outputsFollowTheCommand : Obligations.OutputsFollowTheCommand := by
  intro s
  refine ⟨fun hm => ?_, fun c hm => ?_, fun s' hi => ?_, fun t hs => ?_, fun old t hs => ?_⟩
  · obtain ⟨x, hx⟩ := respond_of_defined hm
    exact ⟨x.err, x.result, by simp [State.err, State.outputs, hx], by simp [State.result, State.outputs, hx],
      respond_err_iff_cause hx⟩
  · obtain ⟨x, hx⟩ := respond_of_defined hm
    exact ⟨x.err, by simp [hx], respond_err_iff_cause hx⟩
  · simp [State.err, State.result, State.outputs, hi]
  · obtain ⟨x, hx, rfl⟩ := step_next_iff.mp hs
    simp [State.err, State.result, State.outputs, hx]
  · obtain ⟨x, hx, rfl⟩ := step_next_iff.mp hs
    exact step_next_iff.mpr ⟨x, hx, rfl⟩

end Sys2Proof.Machine
end

section
/-! Proofs of the memory statements (20_memory.md R23, R25). First what serving a list of commands answers, said once for a stream
and once for interleaved requesters: the responses of the commands in order, with no part of the state in them. The statements are
then facts about lists. -/

namespace Sys2Proof.Machine

open Sys2Proof.Claims

/-! ### Serving a list of commands -/

theorem step_present_of_defined {c : Command} (h : c.op ∈ definedCodes) (s : State) :
    ∃ x, respond c = some x ∧ step (s.present c) = .next ⟨c, some x⟩ := by
  obtain ⟨x, hx⟩ := respond_of_defined h
  exact ⟨x, hx, step_next_iff.mpr ⟨x, hx, rfl⟩⟩

theorem serve_of_defined {cs : List Command} (h : ∀ c ∈ cs, c.op ∈ definedCodes) (s : State) :
    ∃ t, serve cs s = some (cs.filterMap respond, t) := by
  induction cs generalizing s with
  | nil => exact ⟨s, rfl⟩
  | cons c cs ih =>
    obtain ⟨hc, hcs⟩ := List.forall_mem_cons.mp h
    obtain ⟨x, hx, hs⟩ := step_present_of_defined hc s
    obtain ⟨t, ht⟩ := ih hcs ⟨c, some x⟩
    exact ⟨t, by simp [serve, hs, ht, hx]⟩

/-- The response to a requester's command, with the requester it goes to (R108). -/
def respondTagged (e : Nat × Command) : Option (Nat × Response) := (respond e.2).map (Prod.mk e.1)

theorem serveTagged_of_defined {cs : List (Nat × Command)} (h : ∀ e ∈ cs, e.2.op ∈ definedCodes) (s : State) :
    ∃ t, serveTagged cs s = some (cs.filterMap respondTagged, t) := by
  induction cs generalizing s with
  | nil => exact ⟨s, rfl⟩
  | cons e cs ih =>
    obtain ⟨hc, hcs⟩ := List.forall_mem_cons.mp h
    obtain ⟨x, hx, hs⟩ := step_present_of_defined hc s
    obtain ⟨t, ht⟩ := ih hcs ⟨e.2, some x⟩
    exact ⟨t, by simp [serveTagged, respondTagged, hs, ht, hx]⟩

/-- No defined command is left without a response, so the responses stand one to one with the commands. -/
theorem map_some_filterMap_respond {cs : List Command} (h : ∀ c ∈ cs, c.op ∈ definedCodes) :
    (cs.filterMap respond).map some = cs.map respond := by
  rw [List.map_filterMap_some_eq_filter_map_isSome, List.filter_eq_self]
  intro y hy
  obtain ⟨c, hc, rfl⟩ := List.mem_map.mp hy
  obtain ⟨x, hx⟩ := respond_of_defined (h c hc)
  rw [hx, Option.isSome_some]

/-- Picking out one requester's responses is picking out its commands and taking theirs. -/
theorem filter_filterMap_respondTagged (cs : List (Nat × Command)) (n : Nat) :
    ((cs.filterMap respondTagged).filter (fun e => e.1 == n)).map Prod.snd =
      ((cs.filter (fun e => e.1 == n)).map Prod.snd).filterMap respond := by
  rw [List.filter_filterMap, List.map_filterMap, List.filterMap_map, List.filterMap_filter]
  refine congrArg (List.filterMap · cs) (funext fun ⟨m, c⟩ => ?_)
  cases hr : respond c with
  | none => simp [respondTagged, hr]
  | some x => by_cases hm : m = n <;> simp [respondTagged, hr, hm]

/-! ### The statements -/

/-- Settles O16: the step from `t` records the response to the command that already stands there. -/
theorem stepIsIdempotent : Obligations.StepIsIdempotent := by
  intro s t hs
  obtain ⟨x, hx, rfl⟩ := step_next_iff.mp hs
  exact ⟨step_next_iff.mpr ⟨x, hx, rfl⟩, hx.symm⟩

/-- Settles O14: the stream is answered with the responses of its commands, and every one of them has one. -/
theorem streamResponsesAreIndependent : Obligations.StreamResponsesAreIndependent := by
  intro cs s h
  obtain ⟨t, ht⟩ := serve_of_defined h s
  have hrs := map_some_filterMap_respond h
  refine ⟨cs.filterMap respond, t, ht, by simpa using congrArg List.length hrs, fun k hk => ?_⟩
  obtain ⟨x, hx, hr⟩ : ∃ x, (cs.filterMap respond)[k]? = some x ∧ some x = respond cs[k] := by
    simpa [hk] using congrArg (·[k]?) hrs
  exact hx.trans hr

/-- Settles O15: both units answer the commands' responses, and the requester's own are the same list on either side. -/
theorem requestersDoNotInterfere : Obligations.RequestersDoNotInterfere := by
  intro cs s s' n h
  have hown : ∀ c ∈ (cs.filter (fun e => e.1 == n)).map Prod.snd, c.op ∈ definedCodes := by
    intro c hc
    obtain ⟨e, he, rfl⟩ := List.mem_map.mp hc
    exact h e (List.mem_of_mem_filter he)
  obtain ⟨t, ht⟩ := serveTagged_of_defined h s
  obtain ⟨t', ht'⟩ := serve_of_defined hown s'
  exact ⟨_, t, _, t', ht, ht', filter_filterMap_respondTagged cs n⟩

end Sys2Proof.Machine
end

section
/-! Proofs of the encoding statements (30_encoding.md R30 to R41). First the two flat words; then what each row of the op code table
says of the instruction that it assembles, once for all twenty rows; then what follows for a command and for an instruction, and
the saturated call. The statements are read off these. -/

namespace Sys2Proof

open Sys2Proof.Claims

/-! ### The flat words -/

theorem Command.toWord_ofWord (w : CommandWord) : (Command.ofWord w).toWord = w := by
  simp only [Command.toWord, Command.ofWord, BitVec.extractLsb'_append_extractLsb'_eq_extractLsb']
  exact BitVec.extractLsb'_eq_self

theorem toNat_extractLsb'_eq_div_mod {w : Nat} (x : BitVec w) (start length : Nat) :
    (x.extractLsb' start length).toNat = x.toNat / 2 ^ start % 2 ^ length := by
  rw [BitVec.extractLsb'_toNat, Nat.shiftRight_eq_div_pow]

theorem Response.toNat_toWord (r : Response) :
    r.toWord.toNat = (if r.err = true then 2 ^ 64 else 0) + r.result.toNat := by
  rw [Response.toWord, BitVec.toNat_append, BitVec.toNat_ofBool, ← Nat.shiftLeft_add_eq_or_of_lt r.result.isLt]
  cases r.err <;> rfl

theorem Response.ofWord_toWord (r : Response) : Response.ofWord r.toWord = r := by
  have herr : r.toWord.getLsbD 64 = r.err := by
    rw [Response.toWord, BitVec.getLsbD_append]
    simp
  have hresult : r.toWord.extractLsb' 0 64 = r.result := BitVec.extractLsb'_append_eq_right
  rw [Response.ofWord, herr, hresult]

/-! ### The rows of the op code table -/

/-- The command with `a`, `b`, `p` and `q` cut down to the bits that the row's operation reads (R35, R41). -/
def Row.canonical (r : Row) (c : Command) : Command where
  op := r.op
  p := if r.form.isField then c.p else 0
  q := if r.form.isField then c.q else 0
  b := if r.form.readsField then (c.b.setWidth r.width).setWidth 64 else 0
  a := (c.a.setWidth r.width).setWidth 64

/-- The operand numbers that the row's form takes from a command, in the order of the text form (R34, R39). -/
def Row.operandNumbers (r : Row) (c : Command) : List Nat :=
  (c.a.setWidth r.width).toNat ::
    if r.form.isField then c.p.toNat :: c.q.toNat ::
      if r.form.readsField then [(c.b.setWidth r.width).toNat] else []
    else []

theorem Form.isField_of_readsField : ∀ {f : Form}, f.readsField = true → f.isField = true
  | .startLengthField, _ | .highLowField, _ => rfl

/-- A row is found by its op code and by its mnemonic, and the instruction that it assembles has the row's mnemonic, the operands
that the row's form reads, and the command cut down to them as its encoding. -/
structure Row.Sound (r : Row) : Prop where
  lookup_op : lookup r.op = some r
  rowOfMnemonic_mnemonic : rowOfMnemonic r.mnemonic = some r
  mnemonic_assemble (c : Command) : (r.assemble c).mnemonic = r.mnemonic
  operands_assemble (c : Command) : (r.assemble c).operands = r.operandNumbers c
  wellFormed_assemble (c : Command) : (r.assemble c).wellFormed = true
  encode_assemble (c : Command) : encode (r.assemble c) = r.canonical c

theorem fitsPort_toNat (x : Position) : fitsPort x.toNat = true :=
  fitsPort_iff.mpr x.isLt

theorem Row.sound_of_mem {r : Row} (h : r ∈ opTable) : r.Sound := by
  simp only [opTable, extractRows, depositRows, popcountRows, trailingRows, List.cons_append, List.nil_append,
    List.mem_cons, List.not_mem_nil, or_false] at h
  rcases h with rfl | rfl | rfl | rfl | rfl | rfl | rfl | rfl | rfl | rfl | rfl | rfl | rfl | rfl | rfl | rfl | rfl | rfl | rfl | rfl
  all_goals exact {
    lookup_op := rfl
    rowOfMnemonic_mnemonic := rfl
    mnemonic_assemble := fun _ => rfl
    operands_assemble := fun c => by simp [Instr.operands, Row.operandNumbers, Form.isField, Form.readsField]
    wellFormed_assemble := fun c => by simp [Instr.wellFormed, fitsPort_toNat]
    encode_assemble := fun c => by simp [encode, Row.canonical, Form.isField, Form.readsField] }

theorem toNat_setWidth_setWidth {w : Nat} (hw : w ≤ 64) (x : Data) :
    ((x.setWidth w).setWidth 64).toNat = x.toNat % 2 ^ w := by
  rw [BitVec.toNat_setWidth_of_le hw, BitVec.toNat_setWidth]

/-- Commands that agree on the bits that a row reads are the same command once cut down to them (R35). -/
theorem Row.canonical_congr {r : Row} {c d : Command} (ha : c.a.setWidth r.width = d.a.setWidth r.width)
    (hb : r.form.readsField = true → c.b.setWidth r.width = d.b.setWidth r.width)
    (hpos : r.form.isField = true → c.p = d.p ∧ c.q = d.q) : r.canonical c = r.canonical d := by
  unfold Row.canonical
  congr 1
  · exact ite_congr rfl (fun h => (hpos h).1) fun _ => rfl
  · exact ite_congr rfl (fun h => (hpos h).2) fun _ => rfl
  · exact ite_congr rfl (fun h => congrArg _ (hb h)) fun _ => rfl
  · exact congrArg _ ha

/-- The bits that a row does not read have no part in what it assembles: the command cut down to the others is the encoding of
the instruction, which decodes by the same row (R35). -/
theorem Row.Sound.assemble_canonical {r : Row} (hr : r.Sound) (c : Command) : r.assemble (r.canonical c) = r.assemble c := by
  have hdec : decode (r.canonical c) = .instr (r.assemble c) :=
    hr.encode_assemble c ▸ decode_encode (hr.wellFormed_assemble c)
  have hrow : decode (r.canonical c) = .instr (r.assemble (r.canonical c)) := Machine.decode_of_lookup hr.lookup_op
  exact Decoded.instr.inj (hrow.symm.trans hdec)

/-! ### The row of a statement's list, and the row of an instruction -/

theorem definedOps_eq : definedOps = opTable.map (fun r => (r.op, r.mnemonic, r.width)) := rfl

/-- Every instruction that fits the ports is what some row assembles from the instruction's encoding (R41). -/
theorem exists_row_of_wellFormed {i : Instr} (h : i.wellFormed = true) :
    ∃ r ∈ opTable, r.assemble (encode i) = i := by
  have hd := decode_encode h
  cases hl : lookup (encode i).op with
  | none => simp [decode, hl] at hd
  | some r => exact ⟨r, Machine.mem_opTable_of_lookup hl, Decoded.instr.inj ((Machine.decode_of_lookup hl).symm.trans hd)⟩

/-! ### The assembler -/

theorem toNat_setWidth_ofNat {w n : Nat} (hw : w ≤ 64) (hn : n < 2 ^ w) :
    ((BitVec.ofNat 64 n).setWidth w).toNat = n := by
  rw [BitVec.setWidth_ofNat_of_le hw, BitVec.toNat_ofNat, Nat.mod_eq_of_lt hn]

theorem mem_opTable_of_rowOfMnemonic {m : String} {r : Row} (h : rowOfMnemonic m = some r) :
    r ∈ opTable ∧ r.mnemonic = m :=
  ⟨List.mem_of_find?_eq_some h, by simpa using List.find?_some h⟩

/-- The assembler takes the operand numbers of a command apart into the command cut down to what the row reads (R39, R41). -/
theorem assembleText_operandNumbers {r : Row} (hr : r.Sound) (c : Command) :
    assembleText r.mnemonic (r.operandNumbers c) = some (r.assemble c) := by
  cases hf : r.form <;> simpa [assembleText, hr.rowOfMnemonic_mnemonic, Row.operandNumbers, Row.canonical, hf, Form.isField,
    Form.readsField, fitsPort_toNat, BitVec.isLt, -BitVec.toNat_setWidth] using hr.assemble_canonical c

/-- Whatever assembles does so by a row, from a command whose operand numbers were written (R39). -/
theorem exists_row_of_assembleText {m : String} {ns : List Nat} {i : Instr} (h : assembleText m ns = some i) :
    ∃ r ∈ opTable, r.mnemonic = m ∧ ∃ c, r.operandNumbers c = ns ∧ r.assemble c = i := by
  cases hm : rowOfMnemonic m with
  | none => simp [assembleText, hm] at h
  | some r =>
    obtain ⟨hr, hname⟩ := mem_opTable_of_rowOfMnemonic hm
    have hw := Machine.width_le_of_mem_opTable r hr
    refine ⟨r, hr, hname, ?_⟩
    simp only [assembleText, hm] at h
    split at h
    · next a =>
      obtain ⟨⟨hfield, ha⟩, rfl⟩ : (r.form.isField = false ∧ a < 2 ^ r.width) ∧ _ = i := by simpa using h
      exact ⟨_, by simp [Row.operandNumbers, hfield, toNat_setWidth_ofNat hw ha, -BitVec.toNat_setWidth], rfl⟩
    · next a p q =>
      obtain ⟨⟨⟨⟨⟨hfield, hreads⟩, ha⟩, hp⟩, hq⟩, rfl⟩ :
        ((((r.form.isField = true ∧ r.form.readsField = false) ∧ a < 2 ^ r.width) ∧ p < 256) ∧ q < 256) ∧ _ = i := by
        simpa using h
      exact ⟨_, by simp [Row.operandNumbers, hfield, hreads, toNat_setWidth_ofNat hw ha, Nat.mod_eq_of_lt hp,
        Nat.mod_eq_of_lt hq, -BitVec.toNat_setWidth], rfl⟩
    · next a p q b =>
      obtain ⟨⟨⟨⟨⟨hreads, ha⟩, hb⟩, hp⟩, hq⟩, rfl⟩ :
        ((((r.form.readsField = true ∧ a < 2 ^ r.width) ∧ b < 2 ^ r.width) ∧ p < 256) ∧ q < 256) ∧ _ = i := by
        simpa using h
      exact ⟨_, by simp [Row.operandNumbers, Form.isField_of_readsField hreads, hreads, toNat_setWidth_ofNat hw ha,
        toNat_setWidth_ofNat hw hb, Nat.mod_eq_of_lt hp, Nat.mod_eq_of_lt hq, -BitVec.toNat_setWidth], rfl⟩
    · cases h

/-! ### The op codes -/

/-- Each defined code is the code of one number below 256, so as many of these numbers give a defined code as there are rows (R33). -/
theorem filter_definedCodes_perm :
    ((List.range 256).filter (fun n => definedCodes.contains (BitVec.ofNat 8 n))).Perm (definedCodes.map BitVec.toNat) := by
  refine (List.perm_ext_iff_of_nodup (List.nodup_range.filter _) (by decide)).mpr fun n => ?_
  simp only [List.mem_filter, List.mem_range, List.contains_iff_mem, List.mem_map]
  constructor
  · rintro ⟨hn, hm⟩
    exact ⟨_, hm, Nat.mod_eq_of_lt hn⟩
  · rintro ⟨op, hm, rfl⟩
    exact ⟨op.isLt, by simpa using hm⟩

theorem length_filter_reserved :
    ((List.range 256).filter (fun n => !definedCodes.contains (BitVec.ofNat 8 n))).length = 236 := by
  have hsplit := List.length_eq_length_filter_add (l := List.range 256) (fun n => definedCodes.contains (BitVec.ofNat 8 n))
  rw [filter_definedCodes_perm.length_eq, List.length_range] at hsplit
  have hdefined : (definedCodes.map BitVec.toNat).length = 20 := rfl
  omega

/-! ### The saturated call -/

theorem saturate_lt (n : Nat) : saturate n < 256 := by
  unfold saturate
  omega

theorem saturate_eq_self {n : Nat} (h : n < 256) : saturate n = n := by
  unfold saturate
  omega

theorem wellFormed_saturate (i : Instr) : i.saturate.wellFormed = true := by
  cases i <;> simp [Instr.saturate, Instr.wellFormed, saturate_lt]

end Sys2Proof

namespace Sys2Proof.Machine

open Sys2Proof.Claims

/-- Presenting positions as 255 when they are larger changes neither the outcome of a range check nor, where it passes, any
position: no position that passes is above 63 (R34 clause 5). -/
structure SaturationSafe (err : Nat → Nat → Bool) : Prop where
  err_saturate (p q : Nat) : err (saturate p) (saturate q) = err p q
  lt_of_passes {p q : Nat} : err p q = false → p < 256 ∧ q < 256

theorem errStartLength_saturationSafe {w : Nat} (hw : w ≤ 64) : SaturationSafe (errStartLength w) where
  err_saturate p q := by
    rw [Bool.eq_iff_iff, errStartLength_iff, errStartLength_iff]
    unfold saturate
    omega
  lt_of_passes h := by
    rw [errStartLength_eq_false_iff] at h
    omega

theorem errHighLow_saturationSafe {w : Nat} (hw : w ≤ 64) : SaturationSafe (errHighLow w) where
  err_saturate p q := by
    rw [Bool.eq_iff_iff, errHighLow_iff, errHighLow_iff]
    unfold saturate
    omega
  lt_of_passes h := by
    rw [errHighLow_eq_false_iff] at h
    omega

/-- Saturation does not change the outcome of a field operation: on an error no position reaches the response, and otherwise both
positions are presented as they are. -/
theorem SaturationSafe.fieldOutcome_saturate {err : Nat → Nat → Bool} (h : SaturationSafe err) {w : Nat} (value : BitVec w)
    (result : Nat → Nat → BitVec w) (p q : Nat) (s : State) :
    fieldOutcome (err (saturate p) (saturate q)) value (result (saturate p) (saturate q)) s =
      fieldOutcome (err p q) value (result p q) s := by
  rw [h.err_saturate]
  cases he : err p q with
  | true => rfl
  | false =>
    obtain ⟨hp, hq⟩ := h.lt_of_passes he
    rw [saturate_eq_self hp, saturate_eq_self hq]

theorem exec_saturate (i : Instr) (s : State) : exec i.saturate s = exec i s := by
  cases i with
  | extract32 a p q => exact (errStartLength_saturationSafe (by decide)).fieldOutcome_saturate a (extractField a) p q s
  | extract64 a p q => exact (errStartLength_saturationSafe (by decide)).fieldOutcome_saturate a (extractField a) p q s
  | getField32 a p q =>
    exact (errHighLow_saturationSafe (by decide)).fieldOutcome_saturate a (fun p q => extractField a q (fieldLength p q)) p q s
  | getField64 a p q =>
    exact (errHighLow_saturationSafe (by decide)).fieldOutcome_saturate a (fun p q => extractField a q (fieldLength p q)) p q s
  | deposit32 a p q b =>
    exact (errStartLength_saturationSafe (by decide)).fieldOutcome_saturate a (fun p q => depositField a p q b) p q s
  | deposit64 a p q b =>
    exact (errStartLength_saturationSafe (by decide)).fieldOutcome_saturate a (fun p q => depositField a p q b) p q s
  | setField32 a p q b =>
    exact (errHighLow_saturationSafe (by decide)).fieldOutcome_saturate a (fun p q => depositField a q (fieldLength p q) b) p q s
  | setField64 a p q b =>
    exact (errHighLow_saturationSafe (by decide)).fieldOutcome_saturate a (fun p q => depositField a q (fieldLength p q) b) p q s
  | _ => rfl

theorem respond_congr {c d : Command} {i : Instr} (hc : decode c = .instr i) (hd : decode d = .instr i) :
    respond c = respond d := by
  obtain ⟨x, hx⟩ := exec_completes i
  rw [respond_of_exec hc hx, respond_of_exec hd hx]

/-! ### The statements -/

/-- Settles O7: the flat word is undone first, then the canonical encoding. -/
theorem decodeOfEncodeIsIdentity : Obligations.DecodeOfEncodeIsIdentity := by
  intro i h
  rw [decodeWord, encodeWord, Command.ofWord_toWord, decode_encode h]

/-- Settles O1: a field of the word is its value divided by two to the lowest bit, below two to the width. -/
theorem commandWordLayout : Obligations.CommandWordLayout := by
  refine ⟨fun w => ⟨?_, toNat_extractLsb'_eq_div_mod .., toNat_extractLsb'_eq_div_mod .., toNat_extractLsb'_eq_div_mod ..,
    ?_, Command.toWord_ofWord w⟩, Command.ofWord_toWord⟩
  · have hop : (Command.ofWord w).op.toNat = w.toNat / 2 ^ 144 % 2 ^ 8 := toNat_extractLsb'_eq_div_mod ..
    have hw := w.isLt
    omega
  · exact (toNat_extractLsb'_eq_div_mod w 0 64).trans (by rw [pow_zero, Nat.div_one])

/-- Settles O2: every response is legal, and one to a count has no range check to fail. -/
theorem responseWordLayout : Obligations.ResponseWordLayout := by
  refine ⟨fun r => ⟨r.toNat_toWord, r.ofWord_toWord⟩, fun c r x hl hx => ?_⟩
  obtain ⟨hlt, herr, hcount⟩ := respond_legal hl hx
  refine ⟨hlt, fun hf => ⟨?_, hcount hf, Nat.div_eq_of_lt ?_⟩⟩
  · exact Bool.eq_false_of_not_eq_true fun he => Bool.false_ne_true (hf.symm.trans (herr he).1)
  · have hle := hcount hf
    have hw := width_le_of_mem_opTable r (mem_opTable_of_lookup hl)
    omega

/-- Settles O4: the list of codes, mnemonics and widths is that of the table's rows, and a row is found by its code. -/
theorem decoderFollowsTable : Obligations.DecoderFollowsTable := by
  refine ⟨fun c m W h => ?_, fun c h => decode_eq_reserved_iff.mpr ⟨notMem_definedCodes_iff.mp h, rfl⟩, rfl, by decide⟩
  rw [definedOps_eq] at h
  obtain ⟨r, hr, hrow⟩ := List.mem_map.mp h
  obtain ⟨hop, rfl, rfl⟩ : r.op = c.op ∧ r.mnemonic = m ∧ r.width = W := by simpa using hrow
  have hl : lookup c.op = some r := hop ▸ (Row.sound_of_mem hr).lookup_op
  exact ⟨r.assemble c, r, decode_of_lookup hl, (Row.sound_of_mem hr).mnemonic_assemble c, hl, rfl, rfl⟩

/-- Settles O3: a check of each of the twenty rows. -/
theorem opCodeSubfields : Obligations.OpCodeSubfields := by
  unfold Obligations.OpCodeSubfields
  decide

/-- Settles O5: a step is one of two cases, the defined codes are 20 of 256, and their subfields are those of the table's rows. -/
theorem reservedOpCodesRefused : Obligations.ReservedOpCodesRefused := by
  refine ⟨fun s h => ?_, length_filter_reserved, fun op hsub hm => ?_⟩
  · obtain ⟨hm, -⟩ | ⟨-, hr, hs⟩ := step_cases s
    · exact absurd hm h
    · exact ⟨hs, hr⟩
  · obtain ⟨r, hr, rfl⟩ : ∃ r ∈ opTable, r.op = op := List.mem_map.mp hm
    obtain ⟨hzero, -, hlow, hhigh, -⟩ := opCodeSubfields r hr
    omega

/-- Settles O8: the instruction is what the row assembles, and its encoding is the command cut down to what the row reads. -/
theorem encodeOfDecodeIsCanonical : Obligations.EncodeOfDecodeIsCanonical := by
  intro c i r hd hl
  have hmem := mem_opTable_of_lookup hl
  have hr := Row.sound_of_mem hmem
  have hw := width_le_of_mem_opTable r hmem
  obtain rfl : r.assemble c = i := Decoded.instr.inj ((decode_of_lookup hl).symm.trans hd)
  have hwf := hr.wellFormed_assemble c
  refine ⟨hwf, decode_encode hwf, ?_⟩
  rw [hr.encode_assemble]
  refine ⟨op_of_lookup hl, toNat_setWidth_setWidth hw c.a, ?_, rfl, rfl⟩
  cases hreads : r.form.readsField with
  | true => simp [Row.canonical, hreads, toNat_setWidth_setWidth hw]
  | false => simp [Row.canonical, hreads]

/-- Settles O9: text and assembler go by the same row and the same operand numbers. -/
theorem assembleOfTextIsIdentity : Obligations.AssembleOfTextIsIdentity := by
  refine ⟨fun i h => ?_, fun m ns i h => ?_⟩
  · obtain ⟨r, hmem, hi⟩ := exists_row_of_wellFormed h
    have hr := Row.sound_of_mem hmem
    rw [← hi, hr.mnemonic_assemble, hr.operands_assemble, assembleText_operandNumbers hr]
  · obtain ⟨r, hmem, rfl, c, rfl, rfl⟩ := exists_row_of_assembleText h
    have hr := Row.sound_of_mem hmem
    exact ⟨hr.mnemonic_assemble c, hr.operands_assemble c, hr.wellFormed_assemble c⟩

/-- Settles O13: the two commands are the same once cut down to what the row reads, so they decode to one instruction. -/
theorem unreadBitsHaveNoEffect : Obligations.UnreadBitsHaveNoEffect := by
  intro c d r hop hl ha hb hpos
  have hr := Row.sound_of_mem (mem_opTable_of_lookup hl)
  have hcut : r.canonical c = r.canonical d :=
    Row.canonical_congr (BitVec.eq_of_toNat_eq (by simpa using ha))
      (fun h => BitVec.eq_of_toNat_eq (by simpa using hb h)) hpos
  have hsame : r.assemble c = r.assemble d := by
    rw [← hr.assemble_canonical c, hcut, hr.assemble_canonical d]
  exact respond_congr (decode_of_lookup hl) (hsame ▸ decode_of_lookup (hop ▸ hl))

/-- Settles O19: the saturated call fits the ports, so its canonical command decodes to it, and it has the outcome of the call. -/
theorem saturationKeepsTheResponse : Obligations.SaturationKeepsTheResponse := by
  intro i s
  have hwf := wellFormed_saturate i
  exact ⟨hwf, exec_saturate i s, (step_of_decode (decode_encode hwf)).trans (exec_saturate i _)⟩

/-- Settles O6: each word is decoded. -/
theorem writtenWordsDecode : Obligations.WrittenWordsDecode := by
  unfold Obligations.WrittenWordsDecode
  decide

end Sys2Proof.Machine
end

section
/-! Proofs of the extraction statements (40_extract.md R50 to R57). First the operand functions as numbers, at every width; then
what a field operation answers, once for each descriptor form and every width; then the four instructions, and the statements. -/

namespace Sys2Proof.Machine

open Sys2Proof.Claims

/-! ### The checks and the translation -/

/-- R50: over natural numbers the check is one of the field's two ends. -/
theorem rangeOK_iff_add_le {w start length : Nat} (hw : 0 < w) :
    rangeOK w start length = true ↔ start < w ∧ start + length ≤ w := by
  rw [rangeOK_iff]
  omega

theorem errStartLength_iff_rangeOK {w start length : Nat} :
    errStartLength w start length = true ↔ rangeOK w start length = false := by
  rw [errStartLength, Bool.not_eq_true']

theorem errHighLow_iff_boundsOK {w high low : Nat} : errHighLow w high low = true ↔ boundsOK w high low = false := by
  rw [errHighLow, Bool.not_eq_true']

/-- R52: the translation of an accepted (high, low) pair has the length of a nonempty field inside the word. -/
theorem fieldLength_of_boundsOK {w high low : Nat} (hw : 0 < w) (h : boundsOK w high low = true) :
    rangeOK w low (fieldLength high low) = true ∧ 1 ≤ fieldLength high low ∧ fieldLength high low ≤ w := by
  rw [boundsOK_iff] at h
  rw [rangeOK_iff, fieldLength]
  omega

/-- R52, R104: once the bounds are accepted, both checks pass, so the (high, low) check may stand for the (start, length) one. -/
theorem errHighLow_eq_errStartLength {w high low : Nat} (hw : 0 < w) (h : boundsOK w high low = true) :
    errHighLow w high low = errStartLength w low (fieldLength high low) := by
  obtain ⟨hrange, -⟩ := fieldLength_of_boundsOK hw h
  rw [errHighLow, errStartLength, h, hrange]

/-! ### The mask and the extraction as numbers -/

theorem toNat_maskOfWidth {w n : Nat} (h : n ≤ w) : (maskOfWidth w n).toNat = 2 ^ n - 1 := by
  refine Nat.eq_of_testBit_eq fun i => ?_
  rw [BitVec.testBit_toNat, getLsbD_maskOfWidth h, Nat.testBit_two_pow_sub_one]

theorem toNat_extractField {w : Nat} (v : BitVec w) {start length : Nat} (h : length ≤ w) :
    (extractField v start length).toNat = v.toNat / 2 ^ start % 2 ^ length := by
  refine Nat.eq_of_testBit_eq fun i => ?_
  rw [BitVec.testBit_toNat, getLsbD_extractField v h, Nat.testBit_mod_two_pow, Nat.testBit_div_two_pow, BitVec.testBit_toNat,
    Nat.add_comm]

/-! ### What a field operation answers -/

/-- The two responses of a field operation in the terms of the statements: the echo of the value, or the result as a number. -/
theorem fieldOutcome_eq_echo_or_result {w : Nat} (err : Bool) (value result : BitVec w) (s : State) :
    fieldOutcome err value result s =
      .next { s with response := some (if err then echo value.toNat else ⟨false, BitVec.ofNat 64 result.toNat⟩) } := by
  rw [fieldOutcome_eq, echo, BitVec.ofNat_toNat, BitVec.ofNat_toNat]
  cases err <;> rfl

theorem fieldOutcome_eq_echo_iff {w : Nat} {err : Bool} {value result : BitVec w} {s : State} :
    fieldOutcome err value result s = .next { s with response := some (echo value.toNat) } ↔ err = true := by
  rw [fieldOutcome_eq_echo_or_result]
  cases err <;> simp [echo]

/-- A (start, length) operation fails exactly when the range check is false (R50). -/
theorem fails_iff_rangeOK {w : Nat} {value result : BitVec w} {start length : Nat} {i : Instr} {s : State}
    (h : exec i s = fieldOutcome (errStartLength w start length) value result s) :
    Fails value.toNat i s ↔ rangeOK w start length = false := by
  rw [Fails, h, fieldOutcome_eq_echo_iff, errStartLength_iff_rangeOK]

/-- A (high, low) operation fails exactly when the bounds check is false (R52). -/
theorem fails_iff_boundsOK {w : Nat} {value result : BitVec w} {high low : Nat} {i : Instr} {s : State}
    (h : exec i s = fieldOutcome (errHighLow w high low) value result s) :
    Fails value.toNat i s ↔ boundsOK w high low = false := by
  rw [Fails, h, fieldOutcome_eq_echo_iff, errHighLow_iff_boundsOK]

/-- Past the bounds check, a (high, low) operation is the (start, length) operation on the translated pair (R52). -/
theorem fieldOutcome_translate {w high low : Nat} (hw : 0 < w) (h : boundsOK w high low = true) (value result : BitVec w)
    (s : State) :
    fieldOutcome (errHighLow w high low) value result s =
      fieldOutcome (errStartLength w low (fieldLength high low)) value result s := by
  rw [errHighLow_eq_errStartLength hw h]

theorem fieldOutcome_extractField {w : Nat} (v : BitVec w) (start length : Nat) (s : State) :
    fieldOutcome (errStartLength w start length) v (extractField v start length) s =
      .next { s with response := some (extractResponse w v.toNat start length) } := by
  rw [fieldOutcome_eq_echo_or_result, extractResponse]
  cases he : errStartLength w start length with
  | true =>
    have hout : ¬(start ≤ w - 1 ∧ length ≤ w - start) := by simp [← errStartLength_eq_false_iff, he]
    rw [if_neg hout, if_pos rfl]
  | false =>
    have hin := errStartLength_eq_false_iff.mp he
    rw [if_pos hin, if_neg Bool.false_ne_true, toNat_extractField v (hin.2.trans (Nat.sub_le w start))]

theorem fieldOutcome_getField {w : Nat} (hw : 0 < w) (v : BitVec w) (high low : Nat) (s : State) :
    fieldOutcome (errHighLow w high low) v (extractField v low (fieldLength high low)) s =
      .next { s with response := some (getFieldResponse w v.toNat high low) } := by
  cases h : boundsOK w high low with
  | true =>
    obtain ⟨hrange, -⟩ := fieldLength_of_boundsOK hw h
    rw [fieldOutcome_translate hw h, fieldOutcome_extractField, extractResponse, if_pos (rangeOK_iff.mp hrange),
      getFieldResponse, if_pos (boundsOK_iff.mp h), fieldLength]
  | false =>
    have hout : ¬(high ≤ w - 1 ∧ low ≤ w - 1 ∧ high ≥ low) := by simp [← boundsOK_iff, h]
    rw [getFieldResponse, if_neg hout, fieldOutcome_eq_echo_iff, errHighLow_iff_boundsOK, h]

/-! ### The laws of R57, of the responses -/

theorem getFieldResponse_full {w : Nat} (hw : 0 < w) (v : BitVec w) :
    getFieldResponse w v.toNat (w - 1) 0 = ⟨false, v.setWidth 64⟩ := by
  rw [getFieldResponse, if_pos (by omega), pow_zero, Nat.div_one, Nat.sub_zero, Nat.sub_add_cancel hw,
    Nat.mod_eq_of_lt v.isLt, BitVec.ofNat_toNat]

/-- A nonempty field inside the word is the field from its lowest to its highest bit. -/
theorem extractResponse_eq_getFieldResponse {W start length : Nat} (h : start + length ≤ W) (hl : 1 ≤ length) (v : Nat) :
    extractResponse W v start length = getFieldResponse W v (start + length - 1) start := by
  have hlen : start + length - 1 - start + 1 = length := by omega
  rw [extractResponse, if_pos (by omega), getFieldResponse, if_pos (by omega), hlen]

/-- The port can only cut the extracted number down. -/
theorem extractResponse_result_lt {W v start length : Nat} (h : (extractResponse W v start length).err = false) :
    (extractResponse W v start length).result.toNat < 2 ^ length := by
  unfold extractResponse at h ⊢
  split at h
  · next hin =>
    rw [if_pos hin, BitVec.toNat_ofNat]
    exact (Nat.mod_le _ _).trans_lt (Nat.mod_lt _ (Nat.two_pow_pos length))
  · cases h

/-! ### The four instructions -/

theorem exec_extract32 (a : BitVec 32) (start length : Nat) (s : State) :
    exec (.extract32 a start length) s = .next { s with response := some (extractResponse 32 a.toNat start length) } :=
  fieldOutcome_extractField a start length s

theorem exec_extract64 (a : BitVec 64) (start length : Nat) (s : State) :
    exec (.extract64 a start length) s = .next { s with response := some (extractResponse 64 a.toNat start length) } :=
  fieldOutcome_extractField a start length s

theorem exec_getField32 (a : BitVec 32) (high low : Nat) (s : State) :
    exec (.getField32 a high low) s = .next { s with response := some (getFieldResponse 32 a.toNat high low) } :=
  fieldOutcome_getField (by decide) a high low s

theorem exec_getField64 (a : BitVec 64) (high low : Nat) (s : State) :
    exec (.getField64 a high low) s = .next { s with response := some (getFieldResponse 64 a.toNat high low) } :=
  fieldOutcome_getField (by decide) a high low s

/-! ### The statements -/

/-- Settles O23: the four operations end in the outcome of the range check, which is the error bit of their response. -/
theorem rangeCheck : Obligations.RangeCheck := by
  refine ⟨fun W start length hW => ⟨rangeOK_iff, rangeOK_iff_add_le (by omega)⟩, fun a b start length s => ?_,
    fun a b start length s => ?_⟩
  · exact ⟨fails_iff_rangeOK rfl, fails_iff_rangeOK rfl⟩
  · exact ⟨fails_iff_rangeOK rfl, fails_iff_rangeOK rfl⟩

/-- Settles O24: the bits give the value, and a width that is not 0 takes the shift. -/
theorem maskHasLowBits : Obligations.MaskHasLowBits := by
  intro W n _ hn
  exact ⟨toNat_maskOfWidth hn, getLsbD_maskOfWidth hn, fun h => if_neg (Nat.ne_of_gt h)⟩

/-- Settles O25: an accepted pair translates to an accepted one, so both operations of a width have the same error bit. -/
theorem boundsTranslation : Obligations.BoundsTranslation := by
  refine ⟨fun W high low hW => ⟨boundsOK_iff, fieldLength_of_boundsOK (by omega)⟩, fun a b high low s => ?_,
    fun a b high low s => ?_⟩
  · exact ⟨fails_iff_boundsOK rfl, fails_iff_boundsOK rfl, fun h =>
      ⟨fieldOutcome_translate (by decide) h _ _ s, fieldOutcome_translate (by decide) h _ _ s⟩⟩
  · exact ⟨fails_iff_boundsOK rfl, fails_iff_boundsOK rfl, fun h =>
      ⟨fieldOutcome_translate (by decide) h _ _ s, fieldOutcome_translate (by decide) h _ _ s⟩⟩

/-- Settles O26: op code 0x12 decodes to `extract32` on `a[31:0]`. -/
theorem extract32 : Obligations.Extract32 := by
  refine ⟨exec_extract32, fun s h => ?_⟩
  rw [step_of_decode (decode_extract32 h), exec_extract32, BitVec.toNat_setWidth]

/-- Settles O27: op code 0x13 decodes to `extract64` on `a`. -/
theorem extract64 : Obligations.Extract64 := by
  refine ⟨exec_extract64, fun s h => ?_⟩
  rw [step_of_decode (decode_extract64 h), exec_extract64]

/-- Settles O28: op code 0x22 decodes to `getField32` on `a[31:0]`. -/
theorem getField32 : Obligations.GetField32 := by
  refine ⟨exec_getField32, fun s h => ?_⟩
  rw [step_of_decode (decode_getField32 h), exec_getField32, BitVec.toNat_setWidth]

/-- Settles O29: op code 0x23 decodes to `getField64` on `a`. -/
theorem getField64 : Obligations.GetField64 := by
  refine ⟨exec_getField64, fun s h => ?_⟩
  rw [step_of_decode (decode_getField64 h), exec_getField64]

/-- Settles O30: each law is one of the response that the instruction answers; the two failing descriptors raise the error. -/
theorem extractionLaws : Obligations.ExtractionLaws := by
  refine ⟨fun v s => ?_, fun v s => ?_, fun v start length s h hl => ?_, fun v start length s h hl => ?_,
    fun v start length s t x hs hx he => ?_, fun v start length s t x hs hx he => ?_, fun v s => ?_⟩
  · rw [exec_getField32, getFieldResponse_full (by decide) v]
  · rw [exec_getField64, getFieldResponse_full (by decide) v, BitVec.setWidth_eq]
  · rw [exec_extract32, exec_getField32, extractResponse_eq_getFieldResponse h hl]
  · rw [exec_extract64, exec_getField64, extractResponse_eq_getFieldResponse h hl]
  · rw [exec_extract32] at hs
    cases hs
    cases hx
    exact extractResponse_result_lt he
  · rw [exec_extract64] at hs
    cases hs
    cases hx
    exact extractResponse_result_lt he
  · exact ⟨raiseInvalidRange_eq v s, raiseInvalidRange_eq v s⟩

end Sys2Proof.Machine
end

section
/-! Proofs of the deposition statements (41_deposit.md R60 to R65). First the merge as a number, and merge and extraction composed, at
every width; then what a deposition answers, once for each descriptor form and every width; then the four instructions, and the
statements. -/

namespace Sys2Proof.Machine

open Sys2Proof.Claims

/-! ### The merge, as a number and bit by bit -/

/-- R50: an accepted field ends inside the word. -/
theorem add_le_of_rangeOK {w start length : Nat} (h : rangeOK w start length = true) : start + length ≤ w := by
  rw [rangeOK_iff] at h
  omega

/-- The three parts of `merged` are stacked without a carry: below the field, the field, above it. -/
theorem merged_eq_stack (v start length f : Nat) :
    merged v start length f =
      2 ^ start * (2 ^ length * (v / 2 ^ (start + length)) + f % 2 ^ length) + v % 2 ^ start := by
  rw [merged, pow_add]
  ring

theorem testBit_merged (v start length f i : Nat) :
    (merged v start length f).testBit i =
      if start ≤ i ∧ i < start + length then f.testBit (i - start) else v.testBit i := by
  rw [merged_eq_stack, Nat.testBit_two_pow_mul_add _ (Nat.mod_lt _ (Nat.two_pow_pos start)),
    Nat.testBit_two_pow_mul_add _ (Nat.mod_lt _ (Nat.two_pow_pos length))]
  by_cases hbelow : i < start
  · rw [if_pos hbelow, if_neg (by omega), Nat.testBit_mod_two_pow, decide_eq_true hbelow, Bool.true_and]
  · by_cases hfield : i - start < length
    · rw [if_neg hbelow, if_pos hfield, if_pos (by omega), Nat.testBit_mod_two_pow, decide_eq_true hfield, Bool.true_and]
    · rw [if_neg hbelow, if_neg hfield, if_neg (by omega), Nat.testBit_div_two_pow]
      congr 1
      omega

theorem toNat_depositField {w : Nat} (v f : BitVec w) {start length : Nat} (h : start + length ≤ w) :
    (depositField v start length f).toNat = merged v.toNat start length f.toNat := by
  refine Nat.eq_of_testBit_eq fun i => ?_
  rw [BitVec.testBit_toNat, getLsbD_depositField v f h, testBit_merged, BitVec.testBit_toNat, BitVec.testBit_toNat]

theorem getLsbD_depositField_outside {w : Nat} (v f : BitVec w) {start length i : Nat} (h : start + length ≤ w)
    (hi : ¬(start ≤ i ∧ i < start + length)) : (depositField v start length f).getLsbD i = v.getLsbD i := by
  rw [getLsbD_depositField v f h, if_neg hi]

theorem depositField_length_zero {w : Nat} (v f : BitVec w) {start : Nat} (h : start ≤ w) : depositField v start 0 f = v :=
  BitVec.eq_of_getLsbD_eq fun _ _ => getLsbD_depositField_outside v f h (by omega)

/-! ### The merge and the extraction composed -/

/-- R65: the field that was deposited comes back, cut down to its length. -/
theorem extractField_depositField {w : Nat} (v f : BitVec w) {start length : Nat} (h : start + length ≤ w) :
    extractField (depositField v start length f) start length = f &&& maskOfWidth w length := by
  have hlen : length ≤ w := by omega
  refine BitVec.eq_of_getLsbD_eq fun i _ => ?_
  rw [getLsbD_extractField _ hlen, getLsbD_depositField v f h, BitVec.getLsbD_and, getLsbD_maskOfWidth hlen, Bool.and_comm]
  by_cases hi : i < length
  · rw [if_pos (by omega), Nat.add_sub_cancel_left]
  · rw [decide_eq_false hi, Bool.and_false, Bool.and_false]

/-- R65: depositing a field that the value holds already changes nothing. -/
theorem depositField_extractField {w : Nat} (v : BitVec w) {start length : Nat} (h : start + length ≤ w) :
    depositField v start length (extractField v start length) = v := by
  refine BitVec.eq_of_getLsbD_eq fun i _ => ?_
  rw [getLsbD_depositField v _ h]
  split
  · next hi =>
    have hoff : i - start < length := by omega
    rw [getLsbD_extractField v (by omega), decide_eq_true hoff, Bool.true_and, Nat.add_sub_cancel' hi.1]
  · rfl

/-! ### What a deposition answers -/

theorem fieldOutcome_of_rangeOK {w start length : Nat} (h : rangeOK w start length = true) (value result : BitVec w)
    (s : State) :
    fieldOutcome (errStartLength w start length) value result s =
      .next { s with response := some ⟨false, result.setWidth 64⟩ } := by
  rw [errStartLength_eq_false_iff.mpr (rangeOK_iff.mp h), fieldOutcome_eq, if_neg Bool.false_ne_true]

theorem fieldOutcome_depositField {w : Nat} (v f : BitVec w) (start length : Nat) (s : State) :
    fieldOutcome (errStartLength w start length) v (depositField v start length f) s =
      .next { s with response := some (depositResponse w v.toNat start length f.toNat) } := by
  cases h : rangeOK w start length with
  | true =>
    rw [fieldOutcome_of_rangeOK h, depositResponse, if_pos (rangeOK_iff.mp h), ← toNat_depositField v f (add_le_of_rangeOK h),
      BitVec.ofNat_toNat]
  | false =>
    have hout : ¬(start ≤ w - 1 ∧ length ≤ w - start) := by simp [← rangeOK_iff, h]
    rw [depositResponse, if_neg hout, fieldOutcome_eq_echo_iff, errStartLength_iff_rangeOK, h]

theorem fieldOutcome_setField {w : Nat} (hw : 0 < w) (v f : BitVec w) (high low : Nat) (s : State) :
    fieldOutcome (errHighLow w high low) v (depositField v low (fieldLength high low) f) s =
      .next { s with response := some (setFieldResponse w v.toNat high low f.toNat) } := by
  cases h : boundsOK w high low with
  | true =>
    obtain ⟨hrange, -⟩ := fieldLength_of_boundsOK hw h
    rw [fieldOutcome_translate hw h, fieldOutcome_depositField, depositResponse, if_pos (rangeOK_iff.mp hrange),
      setFieldResponse, if_pos (boundsOK_iff.mp h), fieldLength]
  | false =>
    have hout : ¬(high ≤ w - 1 ∧ low ≤ w - 1 ∧ high ≥ low) := by simp [← boundsOK_iff, h]
    rw [setFieldResponse, if_neg hout, fieldOutcome_eq_echo_iff, errHighLow_iff_boundsOK, h]

/-- The two round trips of R65, of the outcomes of the four operations, at every width. -/
theorem fieldOutcome_roundTrip {w : Nat} (v f : BitVec w) {start length : Nat} (s : State) (h : rangeOK w start length = true) :
    ∃ d x : BitVec w,
      fieldOutcome (errStartLength w start length) v (depositField v start length f) s =
        .next { s with response := some ⟨false, d.setWidth 64⟩ } ∧
      fieldOutcome (errStartLength w start length) d (extractField d start length) s =
        .next { s with response := some ⟨false, (f &&& maskOfWidth w length).setWidth 64⟩ } ∧
      fieldOutcome (errStartLength w start length) v (extractField v start length) s =
        .next { s with response := some ⟨false, x.setWidth 64⟩ } ∧
      fieldOutcome (errStartLength w start length) v (depositField v start length x) s =
        .next { s with response := some ⟨false, v.setWidth 64⟩ } ∧
      ∀ i, ¬(start ≤ i ∧ i < start + length) → d.getLsbD i = v.getLsbD i := by
  have hle := add_le_of_rangeOK h
  refine ⟨depositField v start length f, extractField v start length, fieldOutcome_of_rangeOK h _ _ s, ?_,
    fieldOutcome_of_rangeOK h _ _ s, ?_, fun i => getLsbD_depositField_outside v f hle⟩
  · rw [fieldOutcome_of_rangeOK h, extractField_depositField v f hle]
  · rw [fieldOutcome_of_rangeOK h, depositField_extractField v hle]

/-! ### The four instructions -/

theorem exec_deposit32 (a : BitVec 32) (start length : Nat) (b : BitVec 32) (s : State) :
    exec (.deposit32 a start length b) s =
      .next { s with response := some (depositResponse 32 a.toNat start length b.toNat) } :=
  fieldOutcome_depositField a b start length s

theorem exec_deposit64 (a : BitVec 64) (start length : Nat) (b : BitVec 64) (s : State) :
    exec (.deposit64 a start length b) s =
      .next { s with response := some (depositResponse 64 a.toNat start length b.toNat) } :=
  fieldOutcome_depositField a b start length s

theorem exec_setField32 (a : BitVec 32) (high low : Nat) (b : BitVec 32) (s : State) :
    exec (.setField32 a high low b) s = .next { s with response := some (setFieldResponse 32 a.toNat high low b.toNat) } :=
  fieldOutcome_setField (by decide) a b high low s

theorem exec_setField64 (a : BitVec 64) (high low : Nat) (b : BitVec 64) (s : State) :
    exec (.setField64 a high low b) s = .next { s with response := some (setFieldResponse 64 a.toNat high low b.toNat) } :=
  fieldOutcome_setField (by decide) a b high low s

/-! ### The statements -/

/-- Settles O31: the bits are those of the merge's law, the formula is the definition, and an empty field has no bit to replace. -/
theorem mergeBitByBit : Obligations.MergeBitByBit := by
  intro W value field start length _ h
  have hle := add_le_of_rangeOK h
  refine ⟨fun i _ => getLsbD_depositField value field hle i, rfl, ?_⟩
  rintro rfl
  exact depositField_length_zero value field hle

/-- Settles O32: op code 0x32 decodes to `deposit32` on `a[31:0]` and `b[31:0]`. -/
theorem deposit32 : Obligations.Deposit32 := by
  refine ⟨exec_deposit32, fun s h => ?_⟩
  rw [step_of_decode (decode_deposit32 h), exec_deposit32, BitVec.toNat_setWidth, BitVec.toNat_setWidth]

/-- Settles O33: op code 0x33 decodes to `deposit64` on `a` and `b`. -/
theorem deposit64 : Obligations.Deposit64 := by
  refine ⟨exec_deposit64, fun s h => ?_⟩
  rw [step_of_decode (decode_deposit64 h), exec_deposit64]

/-- Settles O34: op code 0x42 decodes to `setField32` on `a[31:0]` and `b[31:0]`. -/
theorem setField32 : Obligations.SetField32 := by
  refine ⟨exec_setField32, fun s h => ?_⟩
  rw [step_of_decode (decode_setField32 h), exec_setField32, BitVec.toNat_setWidth, BitVec.toNat_setWidth]

/-- Settles O35: op code 0x43 decodes to `setField64` on `a` and `b`. -/
theorem setField64 : Obligations.SetField64 := by
  refine ⟨exec_setField64, fun s h => ?_⟩
  rw [step_of_decode (decode_setField64 h), exec_setField64]

/-- Settles O36: the round trips hold of the outcomes, and at width 64 the port takes the word as it is. -/
theorem depositExtractRoundTrip : Obligations.DepositExtractRoundTrip := by
  refine ⟨fun v f start length s h => fieldOutcome_roundTrip v f s h, fun v f start length s h => ?_⟩
  have hround := fieldOutcome_roundTrip v f s h
  simp only [BitVec.setWidth_eq] at hround
  exact hround

end Sys2Proof.Machine
end

section
/-! Proofs of the population-count statements (42_popcount.md R70 to R80). First the sum of bits and its laws, as numbers; then the
count of a word by it; then what a count answers, at every width; then the tree of R71, whose stages add neighbouring groups; then
the statements. -/

namespace Sys2Proof.Machine

open Sys2Proof.Claims

/-! ### The sum of bits -/

theorem bitSum_div (n v b : Nat) : bitSum n (v / 2 ^ b) = ((List.range n).map (fun i => v / 2 ^ (b + i) % 2)).sum := by
  simp only [bitSum, Nat.div_div_eq_div_mul, pow_add]

theorem bitSum_add (m n v : Nat) : bitSum (m + n) v = bitSum m v + bitSum n (v / 2 ^ m) := by
  rw [bitSum_div, bitSum, bitSum, List.range_add, List.map_append, List.sum_append, List.map_map]
  rfl

@[simp] theorem bitSum_zero_right (n : Nat) : bitSum n 0 = 0 := by
  simp [bitSum]

/-! ### The population count of a word -/

/-- R70: each position with a 1 adds its bit to the sum, the others add 0. -/
theorem popCount_eq_bitSum {w : Nat} (v : BitVec w) : popCount v = bitSum w v.toNat := by
  rw [popCount, bitSum]
  induction List.range w with
  | nil => rfl
  | cons i is ih =>
    rw [List.countP_cons, List.map_cons, List.sum_cons, ih, ← Nat.toNat_testBit, BitVec.testBit_toNat, Nat.add_comm]
    cases v.getLsbD i <;> rfl

/-- R80: each position counts in the word or in its complement. -/
theorem popCount_not {w : Nat} (v : BitVec w) : popCount (~~~v) = w - popCount v := by
  have hsplit := List.length_eq_countP_add_countP (fun i => v.getLsbD i) (l := List.range w)
  have hnot : popCount (~~~v) = (List.range w).countP (fun i => !v.getLsbD i) :=
    List.countP_congr fun i hi => by simp [List.mem_range.mp hi]
  simp only [List.length_range, Bool.not_eq_true, Bool.decide_eq_false] at hsplit
  rw [hnot, popCount]
  omega

/-- R80: the positions that zero-extension adds hold 0. -/
theorem popCount_setWidth {w n : Nat} (h : w ≤ n) (v : BitVec w) : popCount (v.setWidth n) = popCount v := by
  obtain ⟨d, rfl⟩ := Nat.exists_eq_add_of_le h
  rw [popCount_eq_bitSum, popCount_eq_bitSum, BitVec.toNat_setWidth_of_le h, bitSum_add, Nat.div_eq_of_lt v.isLt,
    bitSum_zero_right, Nat.add_zero]

/-! ### What a count answers -/

theorem countOutcome_popCount {w : Nat} (v : BitVec w) (s : State) :
    countOutcome (popCount v) s = .next { s with response := some ⟨false, BitVec.ofNat 64 (bitSum w v.toNat)⟩ } := by
  rw [countOutcome_eq, popCount_eq_bitSum]

theorem countOutcome_sub_popCount {w : Nat} (v : BitVec w) (s : State) :
    countOutcome (w - popCount v) s =
      .next { s with response := some ⟨false, BitVec.ofNat 64 (w - bitSum w v.toNat)⟩ } := by
  rw [countOutcome_eq, popCount_eq_bitSum]

/-- The laws of R80, at every width that the unit can extend to 64 bits. -/
theorem countLawsAt {W : Nat} (hW : W ≤ 64) {ones zeros : BitVec W → Instr}
    (hones : ∀ v s, exec (ones v) s = countOutcome (popCount v) s)
    (hzeros : ∀ v s, exec (zeros v) s = countOutcome (W - popCount v) s) : CountLawsAt W ones zeros := by
  intro v s
  have hle := popCount_le v
  have hwide : 64 - popCount (v.setWidth 64) = W - popCount v + (64 - W) := by
    rw [popCount_setWidth hW]
    omega
  refine ⟨popCount v, W - popCount v, hones v s, hzeros v s, Nat.add_sub_cancel' hle, ?_, ?_, ?_⟩
  · rw [← popCount_not]
    exact hones (~~~v) s
  · rw [← popCount_setWidth hW]
    exact countOutcome_eq _ s
  · rw [← hwide]
    exact countOutcome_eq _ s

/-! ### A stage of the tree -/

/-- Group `j` of `g` bits of the word `x` (R71). -/
def bitGroup (g x j : Nat) : Nat := x / 2 ^ (g * j) % 2 ^ g

/-- The low half of every group of `2 ^ (k + 1)` bits: what the mask of stage `k + 1` keeps (R71). -/
def lowHalves {w : Nat} (k : Nat) (x : BitVec w) : BitVec w := x &&& (stageMask64 k).setWidth w

theorem swarStage_eq {w : Nat} (k : Nat) (x : BitVec w) : swarStage k x = lowHalves k x + lowHalves k (x >>> 2 ^ k) := rfl

/-- The PRESUMED constants of G1, read bit by bit. -/
theorem getLsbD_stageMask64 : ∀ k < 6, ∀ i < 64, (stageMask64 k).getLsbD i = decide (i % 2 ^ (k + 1) < 2 ^ k) := by
  decide

section Stage
variable {w k : Nat} (hw : w ≤ 64) (hk : k < 6)
include hw hk

theorem testBit_lowHalves (x : BitVec w) (i : Nat) :
    (lowHalves k x).toNat.testBit i = (x.toNat.testBit i && decide (i % 2 ^ (k + 1) < 2 ^ k)) := by
  rw [BitVec.testBit_toNat, BitVec.testBit_toNat, lowHalves, BitVec.getLsbD_and, BitVec.getLsbD_setWidth]
  by_cases hi : i < w
  · rw [getLsbD_stageMask64 k hk i (by omega), decide_eq_true hi, Bool.true_and]
  · rw [BitVec.getLsbD_of_ge x i (by omega), Bool.false_and, Bool.false_and]

/-- What the mask keeps of group `j` is its low half, a group of half the size. -/
theorem bitGroup_lowHalves (x : BitVec w) (j : Nat) :
    bitGroup (2 ^ (k + 1)) (lowHalves k x).toNat j = bitGroup (2 ^ k) x.toNat (2 * j) := by
  refine Nat.eq_of_testBit_eq fun i => ?_
  have hstart : 2 ^ k * (2 * j) = 2 ^ (k + 1) * j := by ring
  simp only [bitGroup, Nat.testBit_mod_two_pow, Nat.testBit_div_two_pow, testBit_lowHalves hw hk, hstart, Nat.add_comm i,
    Nat.mul_add_mod]
  by_cases hi : i < 2 ^ (k + 1)
  · simp [hi, Nat.mod_eq_of_lt hi, Bool.and_comm]
  · have hi' : ¬ i < 2 ^ k := by omega
    simp [hi, hi']

/-- The highest bit of every group is cleared, so what stands below a group is less than half of the group's place value. -/
theorem lowHalves_mod_lt (x : BitVec w) (j : Nat) :
    (lowHalves k x).toNat % 2 ^ (2 ^ (k + 1) * (j + 1)) < 2 ^ (2 ^ (k + 1) * (j + 1) - 1) := by
  have hsize : 2 ^ (k + 1) = 2 * 2 ^ k := Nat.pow_succ'
  have hpos := Nat.two_pow_pos k
  have hstart : 0 < 2 ^ (k + 1) * (j + 1) := by positivity
  have htop : ¬ (2 ^ (k + 1) * (j + 1) - 1) % 2 ^ (k + 1) < 2 ^ k := by
    rw [Nat.mul_sub_mod hstart, Nat.zero_mod]
    omega
  have hcleared : (lowHalves k x).toNat.testBit (2 ^ (k + 1) * (j + 1) - 1) = false := by
    rw [testBit_lowHalves hw hk, decide_eq_false htop, Bool.and_false]
  rw [← Nat.sub_add_cancel hstart, Nat.mod_pow_succ, ← Nat.toNat_testBit, Nat.add_sub_cancel, hcleared, Bool.toNat_false,
    Nat.mul_zero, Nat.add_zero]
  exact Nat.mod_lt _ (Nat.two_pow_pos _)

/-- R71: no add carries out of a group into the next. -/
theorem lowHalves_no_carry (x y : BitVec w) (j : Nat) :
    (lowHalves k x).toNat % 2 ^ (2 ^ (k + 1) * j) + (lowHalves k y).toNat % 2 ^ (2 ^ (k + 1) * j) <
      2 ^ (2 ^ (k + 1) * j) := by
  cases j with
  | zero => simp [Nat.mod_one]
  | succ j =>
    have hstart : 0 < 2 ^ (k + 1) * (j + 1) := by positivity
    calc
      _ < 2 ^ (2 ^ (k + 1) * (j + 1) - 1) + 2 ^ (2 ^ (k + 1) * (j + 1) - 1) :=
        Nat.add_lt_add (lowHalves_mod_lt hw hk x j) (lowHalves_mod_lt hw hk y j)
      _ = 2 ^ (2 ^ (k + 1) * (j + 1)) := by rw [← Nat.mul_two, Nat.two_pow_pred_mul_two hstart]

end Stage

theorem bitGroup_lt (g x j : Nat) : bitGroup g x j < 2 ^ g := Nat.mod_lt _ (Nat.two_pow_pos g)

/-- Groups add when nothing carries into them from below, nor out of them. -/
theorem bitGroup_add {g x y j : Nat} (hin : x % 2 ^ (g * j) + y % 2 ^ (g * j) < 2 ^ (g * j))
    (hout : bitGroup g x j + bitGroup g y j < 2 ^ g) :
    bitGroup g (x + y) j = bitGroup g x j + bitGroup g y j := by
  rw [bitGroup, Nat.add_div_eq_of_add_mod_lt hin, Nat.add_mod_of_add_mod_lt hout]
  rfl

theorem bitGroup_mod_two_pow {g j w : Nat} (h : g * (j + 1) ≤ w) (x : Nat) : bitGroup g (x % 2 ^ w) j = bitGroup g x j := by
  obtain ⟨d, rfl⟩ := Nat.exists_eq_add_of_le h
  rw [bitGroup, bitGroup, Nat.mul_succ, Nat.add_assoc, pow_add, Nat.mod_mul_right_div_self, pow_add, Nat.mod_mul_right_mod]

theorem bitGroup_shiftRight {w : Nat} (g j : Nat) (x : BitVec w) :
    bitGroup g (x >>> g).toNat j = bitGroup g x.toNat (j + 1) := by
  rw [bitGroup, bitGroup, BitVec.toNat_ushiftRight, Nat.shiftRight_eq_div_pow, Nat.div_div_eq_div_mul, ← pow_add, Nat.mul_succ,
    Nat.add_comm]

/-- R71: a stage replaces every group by the sum of its low and its high half. -/
theorem bitGroup_swarStage {w k : Nat} (hw : w ≤ 64) (hk : k < 6) (x : BitVec w) {j : Nat} (hj : 2 ^ (k + 1) * (j + 1) ≤ w) :
    bitGroup (2 ^ (k + 1)) (swarStage k x).toNat j =
      bitGroup (2 ^ k) x.toNat (2 * j) + bitGroup (2 ^ k) x.toNat (2 * j + 1) := by
  have hlow := bitGroup_lowHalves hw hk x j
  have hhigh := bitGroup_lowHalves hw hk (x >>> 2 ^ k) j
  rw [bitGroup_shiftRight] at hhigh
  have hfits : bitGroup (2 ^ k) x.toNat (2 * j) + bitGroup (2 ^ k) x.toNat (2 * j + 1) < 2 ^ 2 ^ (k + 1) :=
    calc
      _ < 2 ^ 2 ^ k + 2 ^ 2 ^ k := Nat.add_lt_add (bitGroup_lt ..) (bitGroup_lt ..)
      _ = 2 ^ (2 ^ k + 1) := by ring
      _ ≤ 2 ^ 2 ^ (k + 1) := Nat.pow_le_pow_right (by decide) (by have := Nat.one_le_two_pow (n := k); omega)
  rw [swarStage_eq, BitVec.toNat_add, bitGroup_mod_two_pow hj, ← hlow, ← hhigh]
  exact bitGroup_add (lowHalves_no_carry hw hk ..) (by rwa [hlow, hhigh])

/-! ### The tree -/

/-- R71, by induction on the stages: a group's bits are those of its two halves, which the stage adds up. -/
theorem bitGroup_swarWord {w : Nat} (hw : w ≤ 64) (v : BitVec w) (k j : Nat) (hj : 2 ^ k * (j + 1) ≤ w) :
    bitGroup (2 ^ k) (swarWord v k).toNat j = bitSum (2 ^ k) (v.toNat / 2 ^ (2 ^ k * j)) := by
  induction k generalizing j with
  | zero => simp [bitGroup, bitSum, swarWord]
  | succ k ih =>
    have hk : k < 6 := by
      have hpow : 2 ^ (k + 1) ≤ 2 ^ 6 := (Nat.le_mul_of_pos_right _ j.succ_pos).trans (hj.trans hw)
      exact (Nat.pow_le_pow_iff_right (by decide)).mp hpow
    have hhalves : 2 ^ (k + 1) * (j + 1) = 2 ^ k * (2 * j + 1 + 1) := by ring
    have hstart : 2 ^ (k + 1) * j = 2 ^ k * (2 * j) := by ring
    have hle : 2 ^ k * (2 * j + 1) ≤ 2 ^ k * (2 * j + 1 + 1) := Nat.mul_le_mul_left _ (Nat.le_succ _)
    rw [swarWord, bitGroup_swarStage hw hk _ hj, ih (2 * j) (by omega), ih (2 * j + 1) (by omega), hstart, pow_succ 2 k,
      Nat.mul_two, bitSum_add, Nat.div_div_eq_div_mul, ← pow_add, Nat.mul_succ]

/-- The last stage leaves one group, the word. -/
theorem swarPopCount_eq_popCount {w : Nat} (hw : w ≤ 64) (hpow : 2 ^ Nat.log2 w = w) (v : BitVec w) :
    swarPopCount v = popCount v := by
  have hgroup := bitGroup_swarWord hw v (Nat.log2 w) 0 (by omega)
  rwa [hpow, bitGroup, Nat.mul_zero, pow_zero, Nat.div_one, Nat.div_one, Nat.mod_eq_of_lt (BitVec.isLt _),
    ← popCount_eq_bitSum] at hgroup

/-! ### The statements -/

theorem countWidth_le : ∀ W ∈ [8, 16, 32, 64], W ≤ 64 := by decide

theorem two_pow_log2_countWidth : ∀ W ∈ [8, 16, 32, 64], 2 ^ Nat.log2 W = W := by decide

/-- Settles O37: the sum has a summand 1 for each position that the count takes. -/
theorem popCountIsBitSum : Obligations.PopCountIsBitSum :=
  fun _ v _ => ⟨popCount_eq_bitSum v, List.countP_eq_length_filter, popCount_le v⟩

/-- Settles O38: the four meanings are the count at their widths, and each op code decodes to its count of `a[W-1:0]`. -/
theorem countOnes : Obligations.CountOnes := by
  refine ⟨countOutcome_popCount, countOutcome_popCount, countOutcome_popCount, countOutcome_popCount,
    fun s => ⟨fun h => ?_, fun h => ?_, fun h => ?_, fun h => ?_⟩⟩
  · rw [step_of_decode (decode_countOnes8 h), ← BitVec.toNat_setWidth]
    exact countOutcome_popCount _ s
  · rw [step_of_decode (decode_countOnes16 h), ← BitVec.toNat_setWidth]
    exact countOutcome_popCount _ s
  · rw [step_of_decode (decode_countOnes32 h), ← BitVec.toNat_setWidth]
    exact countOutcome_popCount _ s
  · rw [step_of_decode (decode_countOnes64 h)]
    exact countOutcome_popCount _ s

/-- Settles O39: the four meanings are W less the count, and each op code decodes to its count of `a[W-1:0]`. -/
theorem countZeros : Obligations.CountZeros := by
  refine ⟨countOutcome_sub_popCount, countOutcome_sub_popCount, countOutcome_sub_popCount, countOutcome_sub_popCount,
    fun s => ⟨fun h => ?_, fun h => ?_, fun h => ?_, fun h => ?_⟩⟩
  · rw [step_of_decode (decode_countZeros8 h), ← BitVec.toNat_setWidth]
    exact countOutcome_sub_popCount _ s
  · rw [step_of_decode (decode_countZeros16 h), ← BitVec.toNat_setWidth]
    exact countOutcome_sub_popCount _ s
  · rw [step_of_decode (decode_countZeros32 h), ← BitVec.toNat_setWidth]
    exact countOutcome_sub_popCount _ s
  · rw [step_of_decode (decode_countZeros64 h)]
    exact countOutcome_sub_popCount _ s

/-- Settles O40: the laws hold of any two operations that answer the count and W less the count. -/
theorem countLaws : Obligations.CountLaws :=
  ⟨countLawsAt (by decide) (fun _ _ => rfl) (fun _ _ => rfl), countLawsAt (by decide) (fun _ _ => rfl) (fun _ _ => rfl),
    countLawsAt (by decide) (fun _ _ => rfl) (fun _ _ => rfl), countLawsAt (by decide) (fun _ _ => rfl) (fun _ _ => rfl)⟩

/-- Settles O41: every group of a stage inside the word holds the sum of its bits. -/
theorem treeStageHoldsGroupCounts : Obligations.TreeStageHoldsGroupCounts := by
  intro W v hW k _ j hj
  have hinside : 2 ^ k * (j + 1) ≤ W := (Nat.mul_le_mul_left _ hj).trans (Nat.mul_div_le W _)
  rw [← bitSum_div]
  exact bitGroup_swarWord (countWidth_le W hW) v k j hinside

/-- Settles O42: each width is a power of two, so after log2 W stages the one group is the word. -/
theorem treeComputesPopCount : Obligations.TreeComputesPopCount :=
  fun W v hW => swarPopCount_eq_popCount (countWidth_le W hW) (two_pow_log2_countWidth W hW) v

end Sys2Proof.Machine
end

section
/-! Proofs of the trailing-count statements (43_trailing.md R85 to R91). First the count of a word as the length of its run of 0 bits,
and of the complement as that of its run of 1 bits; then the count of a word by its two parts, which the halving search and the 64-bit
split share; then what a trailing count answers, at every width; then the statements. -/

namespace Sys2Proof.Machine

open Sys2Proof.Claims

/-! ### The count is the length of the run -/

theorem isRun_toNat_iff {bit : Bool} {w : Nat} {v : BitVec w} {n : Nat} :
    IsRun bit w v.toNat n ↔ n ≤ w ∧ (∀ i < n, v.getLsbD i = bit) ∧ (n < w → v.getLsbD n = !bit) :=
  Iff.rfl

/-- R85: the search stops at the first 1 bit, or finds none in the word. -/
theorem isRun_ctz {w : Nat} (v : BitVec w) : IsRun false w v.toNat (ctz v) := by
  refine isRun_toNat_iff.mpr ⟨ctz_le v, ?_⟩
  unfold ctz
  cases h : (List.range w).find? (fun i => v.getLsbD i) with
  | none =>
    rw [List.find?_range_eq_none] at h
    exact ⟨fun i hi => by simpa using h i hi, fun hlt => absurd hlt (Nat.lt_irrefl w)⟩
  | some n =>
    obtain ⟨hn, -, hlow⟩ := List.find?_range_eq_some.mp h
    exact ⟨fun i hi => by simpa using hlow i hi, fun _ => hn⟩

theorem ctz_eq_iff_isRun {w : Nat} {v : BitVec w} {n : Nat} : ctz v = n ↔ IsRun false w v.toNat n :=
  ⟨fun h => h ▸ isRun_ctz v, isRun_unique (isRun_ctz v)⟩

/-- R89: the complement's 0 bits are the word's 1 bits. -/
theorem isRun_not_iff {w : Nat} {v : BitVec w} {n : Nat} : IsRun false w (~~~v).toNat n ↔ IsRun true w v.toNat n := by
  rw [isRun_toNat_iff, isRun_toNat_iff]
  refine and_congr_right fun hle => and_congr (forall₂_congr fun i hi => ?_) (forall_congr' fun hlt => ?_)
  · simp [hi.trans_le hle]
  · simp [hlt]

theorem ctz_not_eq_iff_isRun {w : Nat} {v : BitVec w} {n : Nat} : ctz (~~~v) = n ↔ IsRun true w v.toNat n :=
  ctz_eq_iff_isRun.trans isRun_not_iff

/-! ### The position of the lowest 1 bit -/

theorem getLsbD_of_lt_ctz {w : Nat} (v : BitVec w) {i : Nat} (h : i < ctz v) : v.getLsbD i = false :=
  have ⟨_, hlow, _⟩ := isRun_ctz v
  hlow i h

theorem getLsbD_ctz {w : Nat} (v : BitVec w) (h : ctz v < w) : v.getLsbD (ctz v) = true :=
  have ⟨_, _, hend⟩ := isRun_ctz v
  hend h

theorem ctz_eq_of_getLsbD {w : Nat} {v : BitVec w} {n : Nat} (hle : n ≤ w) (hlow : ∀ i < n, v.getLsbD i = false)
    (hend : n < w → v.getLsbD n = true) : ctz v = n :=
  ctz_eq_iff_isRun.mpr ⟨hle, hlow, hend⟩

theorem ctz_eq_width_iff {w : Nat} {v : BitVec w} : ctz v = w ↔ v = 0#w := by
  constructor
  · intro h
    refine BitVec.eq_of_getLsbD_eq fun i hi => ?_
    rw [getLsbD_of_lt_ctz v (h.symm ▸ hi), BitVec.getLsbD_zero]
  · rintro rfl
    exact ctz_eq_of_getLsbD le_rfl (fun i _ => BitVec.getLsbD_zero) fun h => absurd h (Nat.lt_irrefl w)

theorem ctz_lt_of_ne_zero {w : Nat} {v : BitVec w} (h : v ≠ 0#w) : ctz v < w :=
  (ctz_le v).lt_of_ne (mt ctz_eq_width_iff.mp h)

theorem ctz_isLowestOne {w : Nat} {v : BitVec w} (h : v ≠ 0#w) :
    ctz v < w ∧ v.getLsbD (ctz v) = true ∧ ∀ i, i < ctz v → v.getLsbD i = false :=
  ⟨ctz_lt_of_ne_zero h, getLsbD_ctz v (ctz_lt_of_ne_zero h), fun _ => getLsbD_of_lt_ctz v⟩

theorem ctz_eq_zero_iff {w : Nat} (hw : 0 < w) {v : BitVec w} : ctz v = 0 ↔ v.getLsbD 0 = true :=
  ⟨fun h => h ▸ getLsbD_ctz v (h.symm ▸ hw), fun h => ctz_eq_of_getLsbD hw.le (fun i hi => absurd hi i.not_lt_zero) fun _ => h⟩

/-- R91: bit 0 ends the run of 0 bits at once, or the run of 1 bits. -/
theorem ctz_not_eq_zero_iff {w : Nat} (hw : 0 < w) {v : BitVec w} : ctz (~~~v) = 0 ↔ ctz v ≠ 0 := by
  simp [ctz_eq_zero_iff hw, hw]

/-! ### The count of a word by its two parts -/

/-- A low part of zeros is counted whole, and the count goes on in the high part (R86, R88). -/
theorem ctz_of_low_eq_zero {m n : Nat} {v : BitVec (m + n)} (h : v.extractLsb' 0 m = 0#m) :
    ctz v = m + ctz (v.extractLsb' m n) := by
  have hle := ctz_le (v.extractLsb' m n)
  refine ctz_eq_of_getLsbD (by omega) (fun i hi => ?_) fun hlt => ?_
  · by_cases him : i < m
    · simpa [him] using congrArg (fun x : BitVec m => x.getLsbD i) h
    · have hhigh := getLsbD_of_lt_ctz (v.extractLsb' m n) (i := i - m) (by omega)
      rw [BitVec.getLsbD_extractLsb', Nat.add_sub_cancel' (Nat.le_of_not_lt him)] at hhigh
      simpa [show i - m < n by omega] using hhigh
  · have hhigh := getLsbD_ctz (v.extractLsb' m n) (by omega)
    rw [BitVec.getLsbD_extractLsb', Bool.and_eq_true] at hhigh
    exact hhigh.2

/-- A low part with a 1 bit holds the lowest one (R86, R88). -/
theorem ctz_of_low_ne_zero {m n : Nat} {v : BitVec (m + n)} (h : v.extractLsb' 0 m ≠ 0#m) :
    ctz v = ctz (v.extractLsb' 0 m) := by
  have hlt := ctz_lt_of_ne_zero h
  refine ctz_eq_of_getLsbD (by omega) (fun i hi => ?_) fun _ => ?_
  · simpa [hi.trans hlt] using getLsbD_of_lt_ctz _ hi
  · simpa [hlt] using getLsbD_ctz _ hlt

theorem low_eq_zero_iff {w : Nat} (m : Nat) (v : BitVec w) : v.extractLsb' 0 m = 0#m ↔ v.toNat % 2 ^ m = 0 := by
  simp [BitVec.toNat_eq]

/-! ### The halving search -/

/-- What the search has counted, and what there is still to count in the low `r` bits of the word it has shifted (R86). -/
def countWithin (r : Nat) (xn : BitVec 32 × Nat) : Nat := xn.2 + ctz (xn.1.setWidth r)

/-- The mask of a step selects the low bits. -/
theorem and_lowMask_eq_zero_iff {g : Nat} (hg : g ≤ 32) (x : BitVec 32) :
    x &&& BitVec.ofNat 32 (2 ^ g - 1) = 0#32 ↔ x.setWidth g = 0#g := by
  have hlt : 2 ^ g - 1 < 2 ^ 32 :=
    (Nat.sub_lt (Nat.two_pow_pos g) Nat.one_pos).trans_le (Nat.pow_le_pow_right Nat.two_pos hg)
  rw [BitVec.toNat_eq, BitVec.toNat_eq, BitVec.toNat_and, BitVec.toNat_ofNat, Nat.mod_eq_of_lt hlt,
    Nat.and_two_pow_sub_one_eq_mod, BitVec.toNat_setWidth]
  rfl

/-- A step halves the bits still to count and keeps the total. -/
theorem countWithin_halvingStep {g : Nat} (hg : g ≤ 32) (xn : BitVec 32 × Nat) :
    countWithin g (halvingStep g xn) = countWithin (g + g) xn := by
  obtain ⟨x, n⟩ := xn
  have hlow : (x.setWidth (g + g)).extractLsb' 0 g = x.setWidth g := by
    ext i hi
    simp [show i < g + g by omega]
  have hhigh : (x.setWidth (g + g)).extractLsb' g g = (x >>> g).setWidth g := by
    ext i hi
    simp [show g + i < g + g by omega]
  have hzero := and_lowMask_eq_zero_iff hg x
  rw [← hlow] at hzero
  unfold halvingStep
  split
  case isTrue h =>
    rw [countWithin, countWithin, ctz_of_low_eq_zero (hzero.mp h), hhigh, Nat.add_assoc]
  case isFalse h =>
    rw [countWithin, countWithin, ctz_of_low_ne_zero (mt hzero.mpr h), hlow]

/-- The last test counts the one bit that is left, which is 0 only for the operand 0. -/
theorem countWithin_one (xn : BitVec 32 × Nat) :
    (if xn.1 &&& 1#32 = 0#32 then xn.2 + 1 else xn.2) = countWithin 1 xn := by
  have hbit := and_lowMask_eq_zero_iff (g := 1) (by decide) xn.1
  unfold countWithin
  split
  case isTrue h => rw [ctz_eq_width_iff.mpr (hbit.mp h)]
  case isFalse h => rw [Nat.lt_one_iff.mp (ctz_lt_of_ne_zero (mt hbit.mpr h)), Nat.add_zero]

/-- R86: five steps narrow the 32 bits to one, and the last test counts it. -/
theorem ctz32ref_eq_ctz (v : BitVec 32) : ctz32ref v = ctz v := by
  rw [ctz32ref, countWithin_one, countWithin_halvingStep (by decide), countWithin_halvingStep (by decide),
    countWithin_halvingStep (by decide), countWithin_halvingStep (by decide), countWithin_halvingStep (by decide), countWithin]
  simp

/-- R88: the split takes the count of the half in which the lowest 1 bit is. -/
theorem ctz64ref_eq_ctz (v : BitVec 64) : ctz64ref v = ctz v := by
  unfold ctz64ref
  split
  case isTrue h => rw [ctz32ref_eq_ctz, ctz_of_low_eq_zero (m := 32) (n := 32) h]
  case isFalse h => rw [ctz32ref_eq_ctz, ctz_of_low_ne_zero (m := 32) (n := 32) h]

/-! ### What a trailing count answers -/

theorem runOutcome_ctz {w : Nat} (v : BitVec w) (s : State) : RunOutcome false w v.toNat s (countOutcome (ctz v) s) :=
  ⟨ctz v, isRun_ctz v, countOutcome_eq _ s⟩

theorem runOutcome_ctz_not {w : Nat} (v : BitVec w) (s : State) : RunOutcome true w v.toNat s (countOutcome (ctz (~~~v)) s) :=
  ⟨ctz (~~~v), ctz_not_eq_iff_isRun.mp rfl, countOutcome_eq _ s⟩

/-- The result port tells apart all counts up to 64. -/
theorem countOutcome_eq_next_iff {k n : Nat} (hk : k ≤ 64) (hn : n ≤ 64) (s : State) :
    countOutcome k s = .next { s with response := some ⟨false, BitVec.ofNat 64 n⟩ } ↔ k = n := by
  have hnat : BitVec.ofNat 64 k = BitVec.ofNat 64 n ↔ k = n := by
    rw [← BitVec.toNat_inj, BitVec.toNat_ofNat, BitVec.toNat_ofNat, Nat.mod_eq_of_lt (by omega), Nat.mod_eq_of_lt (by omega)]
  simp [countOutcome_eq, hnat]

theorem answers_iff_isRun_false {W : Nat} (hW : W ≤ 64) {i : Instr} {v : BitVec W} {s : State}
    (hi : exec i s = countOutcome (ctz v) s) {n : Nat} (hn : n ≤ W) : Answers i s n ↔ IsRun false W v.toNat n := by
  rw [Answers, hi, countOutcome_eq_next_iff ((ctz_le v).trans hW) (hn.trans hW), ctz_eq_iff_isRun]

theorem answers_iff_isRun_true {W : Nat} (hW : W ≤ 64) {i : Instr} {v : BitVec W} {s : State}
    (hi : exec i s = countOutcome (ctz (~~~v)) s) {n : Nat} (hn : n ≤ W) : Answers i s n ↔ IsRun true W v.toNat n :=
  (answers_iff_isRun_false hW hi hn).trans isRun_not_iff

/-- The laws of R91, at every width. -/
theorem trailingLawsAt {W : Nat} (hW : 0 < W) {zeros ones : BitVec W → Instr}
    (hzeros : ∀ v s, exec (zeros v) s = countOutcome (ctz v) s)
    (hones : ∀ v s, exec (ones v) s = countOutcome (ctz (~~~v)) s) : TrailingLawsAt W zeros ones := by
  intro v s
  refine ⟨ctz v, ctz (~~~v), hzeros v s, hones v s, hzeros (~~~v) s, ctz_isLowestOne, ctz_eq_width_iff.mpr, ?_⟩
  have hnot := ctz_not_eq_zero_iff hW (v := v)
  omega

/-! ### The statements -/

/-- Settles O43: the count is the length of the run of 0 bits, which ends at the lowest 1 bit or at the end of the word. -/
theorem ctzIsLowestOnePosition : Obligations.CtzIsLowestOnePosition := by
  intro W v hW
  refine ⟨ctz_isLowestOne, ctz_eq_width_iff.mpr, ctz_eq_width_iff, ?_, isRun_ctz v⟩
  rw [ctz_eq_zero_iff (by omega), Nat.mod_two_eq_one_iff_testBit_zero, BitVec.testBit_toNat]

/-- Settles O44: the result port tells counts up to W apart, and a run has one length. -/
theorem trailingCountIsExactlyTheRun : Obligations.TrailingCountIsExactlyTheRun :=
  ⟨fun _ _ _ => answers_iff_isRun_false (by decide) rfl, fun _ _ _ => answers_iff_isRun_false (by decide) rfl,
    fun _ _ _ => answers_iff_isRun_true (by decide) rfl, fun _ _ _ => answers_iff_isRun_true (by decide) rfl⟩

/-- Settles O45: the meaning is the count at 32 bits, and op code 0x72 decodes to the count of `a[31:0]`. -/
theorem countTrailingZeros32 : Obligations.CountTrailingZeros32 := by
  refine ⟨runOutcome_ctz, fun s h => ?_⟩
  rw [step_of_decode (decode_countTrailingZeros32 h), ← BitVec.toNat_setWidth]
  exact runOutcome_ctz _ s

/-- Settles O46: as O45 at 64 bits; the split is the count of a word by its two halves. -/
theorem countTrailingZeros64 : Obligations.CountTrailingZeros64 := by
  refine ⟨runOutcome_ctz, fun s h => ?_, fun a s => ?_⟩
  · rw [step_of_decode (decode_countTrailingZeros64 h)]
    exact runOutcome_ctz _ s
  · by_cases hlow : a.toNat % 2 ^ 32 = 0
    · simp only [if_pos hlow]
      rw [← low_eq_zero_iff] at hlow
      exact ⟨_, ctz_of_low_eq_zero (m := 32) (n := 32) hlow ▸ countOutcome_eq _ s, countOutcome_eq _ s⟩
    · simp only [if_neg hlow]
      rw [← low_eq_zero_iff] at hlow
      exact ⟨_, ctz_of_low_ne_zero (m := 32) (n := 32) hlow ▸ countOutcome_eq _ s, countOutcome_eq _ s⟩

/-- Settles O47: the meaning is the count of the complement, and op code 0x82 decodes to that of `a[31:0]`. -/
theorem countTrailingOnes32 : Obligations.CountTrailingOnes32 := by
  refine ⟨runOutcome_ctz_not, fun s h => ?_, fun _ _ => rfl⟩
  rw [step_of_decode (decode_countTrailingOnes32 h), ← BitVec.toNat_setWidth]
  exact runOutcome_ctz_not _ s

/-- Settles O48: as O47 at 64 bits, where op code 0x83 decodes to the count of `a`. -/
theorem countTrailingOnes64 : Obligations.CountTrailingOnes64 := by
  refine ⟨runOutcome_ctz_not, fun s h => ?_, fun _ _ => rfl⟩
  rw [step_of_decode (decode_countTrailingOnes64 h)]
  exact runOutcome_ctz_not _ s

/-- Settles O49: the laws hold of any two operations that answer the count of the operand and that of its complement. -/
theorem trailingLaws : Obligations.TrailingLaws :=
  ⟨trailingLawsAt (by decide) (fun _ _ => rfl) (fun _ _ => rfl), trailingLawsAt (by decide) (fun _ _ => rfl) (fun _ _ => rfl)⟩

/-- Settles O50: each of the five steps halves the bits still to count and keeps the total. -/
theorem halvingSearchComputesCtz : Obligations.HalvingSearchComputesCtz :=
  ctz32ref_eq_ctz

/-- Settles O51, by the halving search of each half. -/
theorem splitComputesCtz64 : Obligations.SplitComputesCtz64 :=
  ctz64ref_eq_ctz

end Sys2Proof.Machine
end

section
/-! Proofs of the exception statements (60_exceptions.md R101 to R106). First that a step has no part of the record in its outcome, and
the response of a command whose range check fails; then the statements. -/

namespace Sys2Proof.Machine

open Sys2Proof.Claims

/-! ### An error and what comes after it -/

/-- The command on the inputs decides the whole outcome: no step reads the recorded response, and an answer replaces it (R14, R106). -/
theorem step_eq_of_inp_eq {s t : State} (h : s.inp = t.inp) : step s = step t := by
  obtain ⟨-, x, hx, hs⟩ | ⟨hm, -, hs⟩ := step_cases s
  · rw [hs, step_next_iff.mpr ⟨x, h ▸ hx, rfl⟩, h]
  · obtain ⟨ht, -⟩ | ⟨-, -, ht⟩ := step_cases t
    · exact absurd (h ▸ ht) hm
    · rw [hs, ht, h]

/-- A failed range check is answered by the echo of `a[W-1:0]` (R102). -/
theorem respond_eq_echo {c : Command} {r : Row} (h : lookup c.op = some r) (he : rangeErr r c = true) :
    respond c = some (echo (c.a.toNat % 2 ^ r.width)) := by
  obtain ⟨-, v, hr⟩ | ⟨hf, -⟩ := respond_row h
  · rw [hr, he, if_pos rfl, echo, ← BitVec.toNat_setWidth, BitVec.ofNat_toNat]
  · simp [rangeErr, hf] at he

/-! ### The statements -/

/-- Settles O20: the error of a response is the range check of the command's row, which fails exactly on the causes. -/
theorem invalidRangeCauses : Obligations.InvalidRangeCauses :=
  fun _ _ hx => respond_err_iff_cause hx

/-- Settles O21: the step records the response of its command, the echo; the range check that failed does not read `b`, so it fails
for every `b`. -/
theorem errorEchoesValueOperand : Obligations.ErrorEchoesValueOperand := by
  intro s t r x hl hs hx he
  obtain ⟨y, hy, rfl⟩ := step_next_iff.mp hs
  cases hx
  have herr : rangeErr r s.inp = true := (respond_err hl hy).symm.trans he
  refine ⟨?_, fun b => respond_eq_echo (c := { s.inp with b := b }) hl herr⟩
  cases hy.symm.trans (respond_eq_echo hl herr)
  rfl

/-- Settles O22: with the following command on the inputs, the three states differ at most in the record, which no step reads; that
the command before it failed plays no part. -/
theorem failingCommandLeavesNothing : Obligations.FailingCommandLeavesNothing :=
  fun _ _ _ _ _ _ _ => ⟨step_eq_of_inp_eq rfl, step_eq_of_inp_eq rfl⟩

end Sys2Proof.Machine
end

section
/-! Proof of the reset statement (10_state.md R18, log entries 2 and 3). The model's zero on the op code port is a reserved op code,
so the state after reset is one in which the unit drives no outputs, holds no record and takes no step. -/

namespace Sys2Proof.Machine

open Sys2Proof.Claims

/-! ### A reserved op code on the inputs -/

/-- Subfield FN = 0 names no operation (R36), and op code 0 has it. -/
theorem zero_notMem_definedCodes : (0 : OpCode) ∉ definedCodes := by
  obtain ⟨-, -, hsub⟩ := reservedOpCodesRefused
  exact hsub 0 (.inr (.inl rfl))

theorem State.outputs_of_reserved {s : State} (h : s.inp.op ∉ definedCodes) : s.outputs = none :=
  (reservedOpCodesRefused.1 s h).2

theorem step_refused_of_reserved {s : State} (h : s.inp.op ∉ definedCodes) : step s = .refused (.reservedOpCode s.inp.op) :=
  (reservedOpCodesRefused.1 s h).1

/-! ### No response on record -/

theorem State.responseLegal_of_response_none {s : State} (h : s.response = none) : s.ResponseLegal := by
  intro r x _ hx
  simp [h] at hx

theorem State.coherent_of_settled {s : State} (h : s.Settled) : s.Coherent :=
  fun _ hx => h.symm.trans hx

/-! ### The statement -/

/-- Settles O18: op code 0 is reserved, so the ports show nothing and the step is refused; the absence of a record agrees with the
ports. -/
theorem resetIsLegalAndRunsNothing : Obligations.ResetIsLegalAndRunsNothing := by
  have hout : State.reset.outputs = none := State.outputs_of_reserved zero_notMem_definedCodes
  have hsettled : State.reset.Settled := hout.symm
  exact ⟨State.responseLegal_of_response_none rfl, State.coherent_of_settled hsettled, hsettled,
    congrArg (Option.map Response.err) hout, step_refused_of_reserved zero_notMem_definedCodes⟩

end Sys2Proof.Machine
end
